-- ==== Sys2Proof/Word.lean ====
section
/-! DEFINITION. The word types of the core (spec/00_scope.md R13: all values are unsigned). -/

namespace Sys2Proof

/-- A 4-bit field of an opcode: a register number, a sprite height, a key number (R18 "Nibble"). -/
abbrev Nibble := BitVec 4

/-- A byte of memory or a V register. -/
abbrev Byte := BitVec 8

/-- A 12-bit address field `nnn`. -/
abbrev Addr12 := BitVec 12

/-- A 16-bit word: an opcode, PC, I, a stack entry. -/
abbrev Word := BitVec 16

end Sys2Proof
end

