-- ==== Sys2Proof/Syntax.lean ====
section
/-! DEFINITION. The instruction set (spec/30_encoding.md R96): one constructor per row of the opcode table, in its order,
named by the row's own pattern. The operand types hold exactly the values the fields can hold (R93). -/

namespace Sys2Proof

/-- One instruction, its operands already taken out of the word (R92, R93). -/
inductive Instr where
  /-- `00E0`: clear the display (R200). -/
  | op00E0
  /-- `00EE`: return from subroutine (R140). -/
  | op00EE
  /-- `1nnn`: jump (R141). -/
  | op1nnn (nnn : Addr12)
  /-- `2nnn`: call subroutine (R142). -/
  | op2nnn (nnn : Addr12)
  /-- `3xkk`: skip if Vx = kk (R143). -/
  | op3xkk (x : Nibble) (kk : Byte)
  /-- `4xkk`: skip if Vx ≠ kk (R144). -/
  | op4xkk (x : Nibble) (kk : Byte)
  /-- `5xy0`: skip if Vx = Vy (R145). -/
  | op5xy0 (x y : Nibble)
  /-- `6xkk`: load immediate (R160). -/
  | op6xkk (x : Nibble) (kk : Byte)
  /-- `7xkk`: add immediate (R161). -/
  | op7xkk (x : Nibble) (kk : Byte)
  /-- `8xy0`: copy register (R162). -/
  | op8xy0 (x y : Nibble)
  /-- `8xy1`: bitwise OR (R163). -/
  | op8xy1 (x y : Nibble)
  /-- `8xy2`: bitwise AND (R164). -/
  | op8xy2 (x y : Nibble)
  /-- `8xy3`: bitwise XOR (R165). -/
  | op8xy3 (x y : Nibble)
  /-- `8xy4`: add, VF := carry (R166). -/
  | op8xy4 (x y : Nibble)
  /-- `8xy5`: subtract, VF := no borrow (R167). -/
  | op8xy5 (x y : Nibble)
  /-- `8xy6`: shift right, VF := old bit 0; `y` is encoded and ignored (R168, R98). -/
  | op8xy6 (x y : Nibble)
  /-- `8xy7`: reverse subtract, VF := no borrow (R169). -/
  | op8xy7 (x y : Nibble)
  /-- `8xyE`: shift left, VF := old bit 7; `y` is encoded and ignored (R170, R98). -/
  | op8xyE (x y : Nibble)
  /-- `9xy0`: skip if Vx ≠ Vy (R146). -/
  | op9xy0 (x y : Nibble)
  /-- `Annn`: load index (R180). -/
  | opAnnn (nnn : Addr12)
  /-- `Bnnn`: jump to nnn + V0 (R147). -/
  | opBnnn (nnn : Addr12)
  /-- `Cxkk`: random byte AND kk (R243). -/
  | opCxkk (x : Nibble) (kk : Byte)
  /-- `Dxyn`: draw sprite (R201). -/
  | opDxyn (x y n : Nibble)
  /-- `Ex9E`: skip if key pressed (R220). -/
  | opEx9E (x : Nibble)
  /-- `ExA1`: skip if key not pressed (R221). -/
  | opExA1 (x : Nibble)
  /-- `Fx07`: read delay timer (R240). -/
  | opFx07 (x : Nibble)
  /-- `Fx0A`: wait for key (R222). -/
  | opFx0A (x : Nibble)
  /-- `Fx15`: set delay timer (R241). -/
  | opFx15 (x : Nibble)
  /-- `Fx18`: set sound timer (R242). -/
  | opFx18 (x : Nibble)
  /-- `Fx1E`: add register to index (R181). -/
  | opFx1E (x : Nibble)
  /-- `Fx29`: point index at font glyph (R182). -/
  | opFx29 (x : Nibble)
  /-- `Fx33`: store decimal digits (R183). -/
  | opFx33 (x : Nibble)
  /-- `Fx55`: store registers V0..Vx (R184). -/
  | opFx55 (x : Nibble)
  /-- `Fx65`: load registers V0..Vx (R185). -/
  | opFx65 (x : Nibble)
  deriving DecidableEq, Repr

/-- The six instruction formats of R92. -/
inductive Format where
  | fixed | nnn | xkk | xy | xyn | x
  deriving DecidableEq, Repr

end Sys2Proof
end

