-- ==== Sys2Proof/WellFormed.lean ====
section
/-! DEFINITION. Well-formed instructions. An assembler's view of an instruction is a mnemonic and a list of numbers
(spec/30_encoding.md R103: "Assembling is substitution of the operand nibbles into the pattern"). `RawInstr.wellFormed`
checks that the mnemonic is a row of the opcode table, that the operands are as many as the row's format has (R92), and
that each fits its field (R93). An `Instr` is well-formed when its raw form passes that check; the operand types of
`Instr` admit no other (Laws/PerInstr.lean proves it constructor by constructor), so every operand form the spec
gives an instruction is admitted. -/

namespace Sys2Proof

/-- An instruction as an assembler reads it: the row's mnemonic and the operands in the order of the pattern. -/
structure RawInstr where
  mnemonic : String
  operands : List Nat
  deriving DecidableEq, Repr

/-- The operand fields of a format, each by its number of bits (R92, R93). -/
def Format.fieldWidths : Format → List Nat
  | .fixed => []
  | .nnn => [12]
  | .xkk => [4, 8]
  | .xy => [4, 4]
  | .xyn => [4, 4, 4]
  | .x => [4]

/-- The mnemonics of each format: the column "used by" of R92. -/
def Format.mnemonics : Format → List String
  | .fixed => ["00E0", "00EE"]
  | .nnn => ["1nnn", "2nnn", "Annn", "Bnnn"]
  | .xkk => ["3xkk", "4xkk", "6xkk", "7xkk", "Cxkk"]
  | .xy => ["5xy0", "8xy0", "8xy1", "8xy2", "8xy3", "8xy4", "8xy5", "8xy6", "8xy7", "8xyE", "9xy0"]
  | .xyn => ["Dxyn"]
  | .x => ["Ex9E", "ExA1", "Fx07", "Fx0A", "Fx15", "Fx18", "Fx1E", "Fx29", "Fx33", "Fx55", "Fx65"]

/-- The six formats. -/
def allFormats : List Format := [.fixed, .nnn, .xkk, .xy, .xyn, .x]

/-- The format of a mnemonic, if it is a row of the opcode table. -/
def formatOf? (mnemonic : String) : Option Format := allFormats.find? fun f => f.mnemonics.contains mnemonic

/-- The operands are as many as the fields and each is below two to the field's width. -/
def operandsFit : List Nat → List Nat → Bool
  | [], [] => true
  | v :: vs, width :: widths => decide (v < 2 ^ width) && operandsFit vs widths
  | [], _ :: _ => false
  | _ :: _, [] => false

/-- The check: a known mnemonic, the right number of operands, each within its field. -/
def RawInstr.wellFormed (r : RawInstr) : Bool :=
  match formatOf? r.mnemonic with
  | some f => operandsFit r.operands f.fieldWidths
  | none => false

/-- The raw form of an instruction: its row's mnemonic, letter for letter, and its operands. -/
def Instr.raw : Instr → RawInstr
  | .op00E0 => ⟨"00E0", []⟩
  | .op00EE => ⟨"00EE", []⟩
  | .op1nnn nnn => ⟨"1nnn", [nnn.toNat]⟩
  | .op2nnn nnn => ⟨"2nnn", [nnn.toNat]⟩
  | .op3xkk x kk => ⟨"3xkk", [x.toNat, kk.toNat]⟩
  | .op4xkk x kk => ⟨"4xkk", [x.toNat, kk.toNat]⟩
  | .op5xy0 x y => ⟨"5xy0", [x.toNat, y.toNat]⟩
  | .op6xkk x kk => ⟨"6xkk", [x.toNat, kk.toNat]⟩
  | .op7xkk x kk => ⟨"7xkk", [x.toNat, kk.toNat]⟩
  | .op8xy0 x y => ⟨"8xy0", [x.toNat, y.toNat]⟩
  | .op8xy1 x y => ⟨"8xy1", [x.toNat, y.toNat]⟩
  | .op8xy2 x y => ⟨"8xy2", [x.toNat, y.toNat]⟩
  | .op8xy3 x y => ⟨"8xy3", [x.toNat, y.toNat]⟩
  | .op8xy4 x y => ⟨"8xy4", [x.toNat, y.toNat]⟩
  | .op8xy5 x y => ⟨"8xy5", [x.toNat, y.toNat]⟩
  | .op8xy6 x y => ⟨"8xy6", [x.toNat, y.toNat]⟩
  | .op8xy7 x y => ⟨"8xy7", [x.toNat, y.toNat]⟩
  | .op8xyE x y => ⟨"8xyE", [x.toNat, y.toNat]⟩
  | .op9xy0 x y => ⟨"9xy0", [x.toNat, y.toNat]⟩
  | .opAnnn nnn => ⟨"Annn", [nnn.toNat]⟩
  | .opBnnn nnn => ⟨"Bnnn", [nnn.toNat]⟩
  | .opCxkk x kk => ⟨"Cxkk", [x.toNat, kk.toNat]⟩
  | .opDxyn x y n => ⟨"Dxyn", [x.toNat, y.toNat, n.toNat]⟩
  | .opEx9E x => ⟨"Ex9E", [x.toNat]⟩
  | .opExA1 x => ⟨"ExA1", [x.toNat]⟩
  | .opFx07 x => ⟨"Fx07", [x.toNat]⟩
  | .opFx0A x => ⟨"Fx0A", [x.toNat]⟩
  | .opFx15 x => ⟨"Fx15", [x.toNat]⟩
  | .opFx18 x => ⟨"Fx18", [x.toNat]⟩
  | .opFx1E x => ⟨"Fx1E", [x.toNat]⟩
  | .opFx29 x => ⟨"Fx29", [x.toNat]⟩
  | .opFx33 x => ⟨"Fx33", [x.toNat]⟩
  | .opFx55 x => ⟨"Fx55", [x.toNat]⟩
  | .opFx65 x => ⟨"Fx65", [x.toNat]⟩

/-- `i` is an instruction the encoder may be given. -/
abbrev Instr.WellFormed (i : Instr) : Prop := i.raw.wellFormed = true

end Sys2Proof
end

