-- ==== Sys2Proof/Decode.lean ====
section
/-! DEFINITION. Fields, byte order, decoder, encoder and the opcode table (spec/30_encoding.md R90 to R101,
spec/20_memory.md R65). The decoder dispatches as R95 and R97 do; `opcodeTable` is R96's list of match and mask. -/

namespace Sys2Proof

/-! ### Byte order (R65): the first byte is bits 15:8. -/

/-- The 16-bit value of two bytes, the first (lower address) in the high half (R62, R65). -/
def wordOfBytes (hi lo : Byte) : Word := hi ++ lo

/-- The byte at the lower address. -/
def highByte (w : Word) : Byte := w.extractLsb' 8 8

/-- The byte at the higher address. -/
def lowByte (w : Word) : Byte := w.extractLsb' 0 8

/-! ### Fields (R14, R91) -/

/-- `op = opcode[15:12]`. -/
def fieldOp (w : Word) : Nibble := w.extractLsb' 12 4

/-- `x = opcode[11:8]`. -/
def fieldX (w : Word) : Nibble := w.extractLsb' 8 4

/-- `y = opcode[7:4]`. -/
def fieldY (w : Word) : Nibble := w.extractLsb' 4 4

/-- `n = opcode[3:0]`. -/
def fieldN (w : Word) : Nibble := w.extractLsb' 0 4

/-- `kk = opcode[7:0]`. -/
def fieldKK (w : Word) : Byte := w.extractLsb' 0 8

/-- `nnn = opcode[11:0]`. -/
def fieldNNN (w : Word) : Addr12 := w.extractLsb' 0 12

/-! ### Decoding -/

/-- Why bytes are no instruction. -/
inductive DecodeError where
  /-- fewer than two bytes were given: an instruction is two bytes (R90) -/
  | truncated
  /-- the word matches no row of the opcode table (R100) -/
  | unknownOpcode (w : Word)
  deriving DecidableEq, Repr

/-- Family 0 (R97): the whole word is compared. -/
def decodeFamily0 (w : Word) : Except DecodeError Instr :=
  if w = 0x00E0#16 then .ok .op00E0
  else if w = 0x00EE#16 then .ok .op00EE
  else .error (.unknownOpcode w)

/-- Family 8 (R97): on `n`. -/
def decodeFamily8 (w : Word) : Except DecodeError Instr :=
  if fieldN w = 0x0#4 then .ok (.op8xy0 (fieldX w) (fieldY w))
  else if fieldN w = 0x1#4 then .ok (.op8xy1 (fieldX w) (fieldY w))
  else if fieldN w = 0x2#4 then .ok (.op8xy2 (fieldX w) (fieldY w))
  else if fieldN w = 0x3#4 then .ok (.op8xy3 (fieldX w) (fieldY w))
  else if fieldN w = 0x4#4 then .ok (.op8xy4 (fieldX w) (fieldY w))
  else if fieldN w = 0x5#4 then .ok (.op8xy5 (fieldX w) (fieldY w))
  else if fieldN w = 0x6#4 then .ok (.op8xy6 (fieldX w) (fieldY w))
  else if fieldN w = 0x7#4 then .ok (.op8xy7 (fieldX w) (fieldY w))
  else if fieldN w = 0xE#4 then .ok (.op8xyE (fieldX w) (fieldY w))
  else .error (.unknownOpcode w)

/-- Family E (R97): on the whole low byte. -/
def decodeFamilyE (w : Word) : Except DecodeError Instr :=
  if fieldKK w = 0x9E#8 then .ok (.opEx9E (fieldX w))
  else if fieldKK w = 0xA1#8 then .ok (.opExA1 (fieldX w))
  else .error (.unknownOpcode w)

/-- Family F (R97): on the whole low byte. -/
def decodeFamilyF (w : Word) : Except DecodeError Instr :=
  if fieldKK w = 0x07#8 then .ok (.opFx07 (fieldX w))
  else if fieldKK w = 0x0A#8 then .ok (.opFx0A (fieldX w))
  else if fieldKK w = 0x15#8 then .ok (.opFx15 (fieldX w))
  else if fieldKK w = 0x18#8 then .ok (.opFx18 (fieldX w))
  else if fieldKK w = 0x1E#8 then .ok (.opFx1E (fieldX w))
  else if fieldKK w = 0x29#8 then .ok (.opFx29 (fieldX w))
  else if fieldKK w = 0x33#8 then .ok (.opFx33 (fieldX w))
  else if fieldKK w = 0x55#8 then .ok (.opFx55 (fieldX w))
  else if fieldKK w = 0x65#8 then .ok (.opFx65 (fieldX w))
  else .error (.unknownOpcode w)

/-- The instruction a fetched word stands for, or the refusal by name (R94, R95, R126). Total on every word. -/
def decodeWord (w : Word) : Except DecodeError Instr :=
  if fieldOp w = 0x0#4 then decodeFamily0 w
  else if fieldOp w = 0x1#4 then .ok (.op1nnn (fieldNNN w))
  else if fieldOp w = 0x2#4 then .ok (.op2nnn (fieldNNN w))
  else if fieldOp w = 0x3#4 then .ok (.op3xkk (fieldX w) (fieldKK w))
  else if fieldOp w = 0x4#4 then .ok (.op4xkk (fieldX w) (fieldKK w))
  else if fieldOp w = 0x5#4 then (if fieldN w = 0x0#4 then .ok (.op5xy0 (fieldX w) (fieldY w)) else .error (.unknownOpcode w))
  else if fieldOp w = 0x6#4 then .ok (.op6xkk (fieldX w) (fieldKK w))
  else if fieldOp w = 0x7#4 then .ok (.op7xkk (fieldX w) (fieldKK w))
  else if fieldOp w = 0x8#4 then decodeFamily8 w
  else if fieldOp w = 0x9#4 then (if fieldN w = 0x0#4 then .ok (.op9xy0 (fieldX w) (fieldY w)) else .error (.unknownOpcode w))
  else if fieldOp w = 0xA#4 then .ok (.opAnnn (fieldNNN w))
  else if fieldOp w = 0xB#4 then .ok (.opBnnn (fieldNNN w))
  else if fieldOp w = 0xC#4 then .ok (.opCxkk (fieldX w) (fieldKK w))
  else if fieldOp w = 0xD#4 then .ok (.opDxyn (fieldX w) (fieldY w) (fieldN w))
  else if fieldOp w = 0xE#4 then decodeFamilyE w
  else decodeFamilyF w

/-- The decoder on bytes: the first instruction and the bytes after it (R90: two bytes, high byte first). -/
def decode : List Byte → Except DecodeError (Instr × List Byte)
  | hi :: lo :: rest => (decodeWord (wordOfBytes hi lo)).map fun i => (i, rest)
  | [_] => .error .truncated
  | [] => .error .truncated

/-- What the decoder reads from an opcode-table word: `nbits` bits of `w`, the bits above them zero, laid out as the
hardware stores them, high byte at the lower address (R65). -/
def decodeTableWord (nbits w : Nat) : Option Instr :=
  let word : Word := BitVec.ofNat 16 (w % 2 ^ nbits)
  match decode [highByte word, lowByte word] with
  | .ok (i, _) => some i
  | .error _ => none

/-! ### Encoding -/

/-- The word of an instruction: its operands put into the row's pattern (R92, R96, R103). -/
def encode : Instr → Word
  | .op00E0 => 0x00E0#16
  | .op00EE => 0x00EE#16
  | .op1nnn nnn => 0x1#4 ++ nnn
  | .op2nnn nnn => 0x2#4 ++ nnn
  | .op3xkk x kk => 0x3#4 ++ x ++ kk
  | .op4xkk x kk => 0x4#4 ++ x ++ kk
  | .op5xy0 x y => 0x5#4 ++ x ++ y ++ 0x0#4
  | .op6xkk x kk => 0x6#4 ++ x ++ kk
  | .op7xkk x kk => 0x7#4 ++ x ++ kk
  | .op8xy0 x y => 0x8#4 ++ x ++ y ++ 0x0#4
  | .op8xy1 x y => 0x8#4 ++ x ++ y ++ 0x1#4
  | .op8xy2 x y => 0x8#4 ++ x ++ y ++ 0x2#4
  | .op8xy3 x y => 0x8#4 ++ x ++ y ++ 0x3#4
  | .op8xy4 x y => 0x8#4 ++ x ++ y ++ 0x4#4
  | .op8xy5 x y => 0x8#4 ++ x ++ y ++ 0x5#4
  | .op8xy6 x y => 0x8#4 ++ x ++ y ++ 0x6#4
  | .op8xy7 x y => 0x8#4 ++ x ++ y ++ 0x7#4
  | .op8xyE x y => 0x8#4 ++ x ++ y ++ 0xE#4
  | .op9xy0 x y => 0x9#4 ++ x ++ y ++ 0x0#4
  | .opAnnn nnn => 0xA#4 ++ nnn
  | .opBnnn nnn => 0xB#4 ++ nnn
  | .opCxkk x kk => 0xC#4 ++ x ++ kk
  | .opDxyn x y n => 0xD#4 ++ x ++ y ++ n
  | .opEx9E x => 0xE#4 ++ x ++ 0x9E#8
  | .opExA1 x => 0xE#4 ++ x ++ 0xA1#8
  | .opFx07 x => 0xF#4 ++ x ++ 0x07#8
  | .opFx0A x => 0xF#4 ++ x ++ 0x0A#8
  | .opFx15 x => 0xF#4 ++ x ++ 0x15#8
  | .opFx18 x => 0xF#4 ++ x ++ 0x18#8
  | .opFx1E x => 0xF#4 ++ x ++ 0x1E#8
  | .opFx29 x => 0xF#4 ++ x ++ 0x29#8
  | .opFx33 x => 0xF#4 ++ x ++ 0x33#8
  | .opFx55 x => 0xF#4 ++ x ++ 0x55#8
  | .opFx65 x => 0xF#4 ++ x ++ 0x65#8

/-- The two bytes of an instruction, in the order they stand in memory (R65, R90). -/
def encodeBytes (i : Instr) : List Byte := [highByte (encode i), lowByte (encode i)]

/-! ### The opcode table of R96 -/

/-- One row: its mnemonic and its `match` and `mask` columns. -/
structure OpcodeRow where
  mnemonic : String
  value : Word
  mask : Word
  deriving DecidableEq, Repr

/-- A word matches a row when its bits under the mask are the row's (R94). -/
def OpcodeRow.fits (r : OpcodeRow) (w : Word) : Bool := w &&& r.mask == r.value

/-- The 34 rows of R96, in its order. -/
def opcodeTable : List OpcodeRow :=
  [⟨"00E0", 0x00E0, 0xFFFF⟩, ⟨"00EE", 0x00EE, 0xFFFF⟩, ⟨"1nnn", 0x1000, 0xF000⟩, ⟨"2nnn", 0x2000, 0xF000⟩, ⟨"3xkk", 0x3000, 0xF000⟩]
  ++ [⟨"4xkk", 0x4000, 0xF000⟩, ⟨"5xy0", 0x5000, 0xF00F⟩, ⟨"6xkk", 0x6000, 0xF000⟩, ⟨"7xkk", 0x7000, 0xF000⟩, ⟨"8xy0", 0x8000, 0xF00F⟩]
  ++ [⟨"8xy1", 0x8001, 0xF00F⟩, ⟨"8xy2", 0x8002, 0xF00F⟩, ⟨"8xy3", 0x8003, 0xF00F⟩, ⟨"8xy4", 0x8004, 0xF00F⟩, ⟨"8xy5", 0x8005, 0xF00F⟩]
  ++ [⟨"8xy6", 0x8006, 0xF00F⟩, ⟨"8xy7", 0x8007, 0xF00F⟩, ⟨"8xyE", 0x800E, 0xF00F⟩, ⟨"9xy0", 0x9000, 0xF00F⟩, ⟨"Annn", 0xA000, 0xF000⟩]
  ++ [⟨"Bnnn", 0xB000, 0xF000⟩, ⟨"Cxkk", 0xC000, 0xF000⟩, ⟨"Dxyn", 0xD000, 0xF000⟩, ⟨"Ex9E", 0xE09E, 0xF0FF⟩, ⟨"ExA1", 0xE0A1, 0xF0FF⟩]
  ++ [⟨"Fx07", 0xF007, 0xF0FF⟩, ⟨"Fx0A", 0xF00A, 0xF0FF⟩, ⟨"Fx15", 0xF015, 0xF0FF⟩, ⟨"Fx18", 0xF018, 0xF0FF⟩, ⟨"Fx1E", 0xF01E, 0xF0FF⟩]
  ++ [⟨"Fx29", 0xF029, 0xF0FF⟩, ⟨"Fx33", 0xF033, 0xF0FF⟩, ⟨"Fx55", 0xF055, 0xF0FF⟩, ⟨"Fx65", 0xF065, 0xF0FF⟩]

end Sys2Proof
end

