-- ==== Sys2Proof/Config.lean ====
section
/-! DEFINITION. What is fixed for this hardware (spec/00_scope.md R11) and the one free value of the spec,
the random byte. The font bytes, a parameter with a default, stand in Machine/Font.lean. -/

namespace Sys2Proof.Config

/-- `MEM_SIZE`: the memory has the addresses 0x000..0xFFF (R11, R60). -/
def memSize : Nat := 4096

/-- `PROG_BASE`: where `load_program` places a program and where PC starts (R11). -/
def progBase : Nat := 0x200

/-- `ROM_MAX`: the longest program `load_program` accepts, in bytes (R11). -/
def romMax : Nat := 3584

/-- `FONT_BASE` (R11). -/
def fontBase : Nat := 0x000

/-- How many bytes the font takes: 16 glyphs of 5 bytes (R11). -/
def fontSize : Nat := 80

/-- `STACK_DEPTH` (R11). -/
def stackDepth : Nat := 16

/-- FREE VALUE (log entry 3): the random byte that the `n`-th executed `Cxkk` consumes (R246: "an unconstrained
input"). It has no body, so nothing can be proved of its values. Safe. -/
opaque freeByte : Nat → Byte

end Sys2Proof.Config
end

