-- ==== Sys2Proof/Machine/Font.lean ====
section
/-! DEFINITION. The font (spec/20_memory.md R70). Its bytes are a PARAMETER of the hardware: the source does not give
them. The model takes the spec's default table. Mark: PRESUMED, unsafe (log entry 1). No obligation rests on the value
of a font byte. -/

namespace Sys2Proof.Machine

/-- `FONT[0..79]`, the default table of R70: five bytes a glyph, digits 0 to F. -/
def fontTable : List Byte :=
  [0xF0, 0x90, 0x90, 0x90, 0xF0] ++ [0x20, 0x60, 0x20, 0x20, 0x70] ++ [0xF0, 0x10, 0xF0, 0x80, 0xF0]
  ++ [0xF0, 0x10, 0xF0, 0x10, 0xF0] ++ [0x90, 0x90, 0xF0, 0x10, 0x10] ++ [0xF0, 0x80, 0xF0, 0x10, 0xF0]
  ++ [0xF0, 0x80, 0xF0, 0x90, 0xF0] ++ [0xF0, 0x10, 0x20, 0x40, 0x40] ++ [0xF0, 0x90, 0xF0, 0x90, 0xF0]
  ++ [0xF0, 0x90, 0xF0, 0x10, 0xF0] ++ [0xF0, 0x90, 0xF0, 0x90, 0x90] ++ [0xE0, 0x90, 0xE0, 0x90, 0xE0]
  ++ [0xF0, 0x80, 0x80, 0x80, 0xF0] ++ [0xE0, 0x90, 0x90, 0x90, 0xE0] ++ [0xF0, 0x80, 0xF0, 0x80, 0xF0]
  ++ [0xF0, 0x80, 0xF0, 0x80, 0x80]

/-- `FONT[a]` for `a` in 0x000..0x04F (R35). -/
def fontByte (a : Nat) : Byte := fontTable.getD a 0

end Sys2Proof.Machine
end

