-- ==== Sys2Proof/Machine/Memory.lean ====
section
/-! DEFINITION. Memory (spec/20_memory.md R60, R61, R69): 4096 bytes of plain storage, held as the list of the bytes that
differ from what `reset` put there, by rising address. What an unlisted address reads as is the reset content (R35). -/

namespace Sys2Proof.Machine

/-- `MEM`, as a list of (address, byte). -/
abbrev Memory := List Host.Cell

/-- What an address reads as when it is not listed: the reset content, the font at 0x000..0x04F and 0x00 above (R35). -/
def unlistedByte (a : Nat) : Byte := if a < Config.fontSize then fontByte a else 0

/-- `MEM[a]` (R69). -/
def Memory.get (m : Memory) (a : Nat) : Byte := (m.lookup a).getD (unlistedByte a)

/-- Put a cell in its place by address. -/
def Memory.insertCell (c : Host.Cell) : Memory → Memory
  | [] => [c]
  | d :: m => if c.1 < d.1 then c :: d :: m else d :: Memory.insertCell c m

/-- The memory with nothing listed at `a`. -/
def Memory.forget (m : Memory) (a : Nat) : Memory := m.filter fun c => c.1 != a

/-- `MEM[a] <- b`, in canonical form: a byte equal to the reset content is not listed. -/
def Memory.set (m : Memory) (a : Nat) (b : Byte) : Memory :=
  if b = unlistedByte a then Memory.forget m a else Memory.insertCell (a, b) (Memory.forget m a)

/-- Bytes at rising addresses from `a` (R66). -/
def Memory.setBytes (m : Memory) (a : Nat) : List Byte → Memory
  | [] => m
  | b :: bs => Memory.setBytes (Memory.set m a b) (a + 1) bs

/-- The cells lie at rising addresses from `lo` on, all inside the address space, none equal to the reset content. -/
def Memory.wfFrom : Nat → Memory → Bool
  | _, [] => true
  | lo, c :: m => decide (lo ≤ c.1) && decide (c.1 < Config.memSize) && c.2 != unlistedByte c.1 && Memory.wfFrom (c.1 + 1) m

/-- The canonical form: equal memories are equal lists. -/
def Memory.wf (m : Memory) : Bool := Memory.wfFrom 0 m

end Sys2Proof.Machine
end

