-- ==== Sys2Proof/Machine/State.lean ====
section
/-! DEFINITION. The whole state of the core as plain data (spec/10_state.md R20), its reset value
(spec/70_reset_and_hazards.md R290), and the reasons a step of the interface could stop. -/

namespace Sys2Proof.Machine

/-- `MODE` (R36): encodings 0, 1, 2. -/
inductive Mode where
  /-- `step` fetches and executes -/
  | run
  /-- waiting for a key press, entered by `Fx0A` -/
  | waitkey
  /-- a fault is latched; only `reset` leaves it -/
  | faulted
  deriving DecidableEq, Repr

/-- `FAULT.cause` (R38, R261): codes 0 to 5. -/
inductive FaultCause where
  /-- no fault latched -/
  | none
  /-- the fetched word matches no row of the opcode table -/
  | unknownOpcode
  /-- a call with 16 entries in use -/
  | stackOverflow
  /-- a return with an empty stack -/
  | stackUnderflow
  /-- an access with an address above 0xFFF -/
  | memoryOutOfRange
  /-- a program store into 0x000..0x04F -/
  | fontWriteFault
  deriving DecidableEq, Repr

/-- `FAULT` (R38): the record of the fault that put the core in `FAULTED`. -/
structure FaultRecord where
  cause : FaultCause
  /-- the fetched word, or 0 for a fetch fault -/
  opcode : Word
  /-- the address the faulting instruction was, or was to be, fetched from -/
  pc : Word
  /-- the offending memory address for the two memory causes, else 0 -/
  addr : BitVec 17
  deriving DecidableEq, Repr

/-- The state of the core (R20), every field under the spec's own name in lower case, and the model's own `draws`. -/
structure State where
  /-- `V[0..15]` (R21) -/
  v : Vector Byte 16
  /-- `I` (R24) -/
  index : Word
  /-- `PC` (R25): between steps, the address of the next instruction; inside `exec`, the advanced PC -/
  pc : Word
  /-- `STACK[0..15]` (R28) -/
  stack : Vector Word 16
  /-- `SP` (R29): the number of valid entries, 0..16 -/
  sp : Fin 17
  /-- `DT` (R30) -/
  dt : Byte
  /-- `ST` (R31) -/
  st : Byte
  /-- `KEY[0..15]` (R32) -/
  key : Vector Bool 16
  /-- `FB[row][col]` (R33): one word a row, column 0 its most significant bit (log entry 10) -/
  fb : Vector (BitVec 64) 32
  /-- `DIRTY` (R34) -/
  dirty : Bool
  /-- `MEM` (R35): the bytes that differ from what reset puts there, by rising address (Machine/Memory.lean) -/
  mem : List Host.Cell
  /-- `MODE` (R36) -/
  mode : Mode
  /-- `WAITX` (R37) -/
  waitx : Nibble
  /-- `FAULT` (R38) -/
  fault : FaultRecord
  /-- the MODEL'S own: how many random bytes have been drawn (log entry 3) -/
  draws : Nat
  deriving DecidableEq, Repr

/-- Why the interface's step could stop with a fault. The spec's own faults are not here: they are taken, that is
entered as a next state (R263; `FaultCause`, Machine/Ops.lean `raise`). -/
inductive Fault where
  /-- An operation on a core that was never reset, on which "no operation is defined" (R292, R41). Nobody raises it:
  every `State` is a state after a reset, and an obligation states that no step ends here. Safe. -/
  | neverReset
  deriving DecidableEq, Repr

/-- Why the interface's step could refuse an instruction. -/
inductive Refusal where
  /-- An instruction of the opcode table without a meaning in this model, by its mnemonic. Raised only by an arm of
  `exec` that is not written yet; no arm is. Safe. -/
  | notModelled (mnemonic : String)
  deriving DecidableEq, Repr

/-- No fault latched: the reset value of `FAULT` (R38). -/
def FaultRecord.clear : FaultRecord := ⟨.none, 0, 0, 0⟩

/-- The state after `reset` (R290, R291): PC 0x200, memory as reset leaves it (font, then zeros), all else zero,
mode `RUN`. `draws` 0 is a DESIGN CHOICE (log entry 3); no statement rests on it. -/
def State.reset : State where
  v := Vector.replicate 16 0
  index := 0
  pc := 0x0200
  stack := Vector.replicate 16 0
  sp := 0
  dt := 0
  st := 0
  key := Vector.replicate 16 false
  fb := Vector.replicate 32 0
  dirty := false
  mem := []
  mode := .run
  waitx := 0
  fault := FaultRecord.clear
  draws := 0

end Sys2Proof.Machine
end

