-- ==== Sys2Proof/Machine/Ops.lean ====
section
/-! DEFINITION. The named operations over the state: one accessor and one update a state element (spec/10_state.md),
the memory primitives with their checks (spec/20_memory.md R62 to R64), the stack (R29), the framebuffer's pixels
(spec/44_display.md), entering a fault (spec/60_exceptions.md R263) and what `step` answers (R127). -/

namespace Sys2Proof.Machine

/-! ### Registers and the plain elements -/

/-- `V[x]` (R21). -/
def State.getV (s : State) (x : Nibble) : Byte := s.v[x.toNat]

/-- `V[x] <- b` (R21). -/
def State.setV (s : State) (x : Nibble) (b : Byte) : State := { s with v := s.v.set x.toNat b }

/-- All of `V` at once. -/
def State.setVs (s : State) (v : Vector Byte 16) : State := { s with v := v }

/-- `I <- w` (R24). -/
def State.setI (s : State) (w : Word) : State := { s with index := w }

/-- `PC <- w` (R25). -/
def State.setPc (s : State) (w : Word) : State := { s with pc := w }

/-- The stack's entries and its pointer (R28, R29). -/
def State.setStack (s : State) (stack : Vector Word 16) (sp : Fin 17) : State := { s with stack := stack, sp := sp }

/-- `DT <- b` (R30). -/
def State.setDt (s : State) (b : Byte) : State := { s with dt := b }

/-- `ST <- b` (R31). -/
def State.setSt (s : State) (b : Byte) : State := { s with st := b }

/-- All of `KEY` at once (R32). -/
def State.setKey (s : State) (k : Vector Bool 16) : State := { s with key := k }

/-- All of `FB` at once (R33). -/
def State.setFb (s : State) (fb : Vector (BitVec 64) 32) : State := { s with fb := fb }

/-- `DIRTY <- d` (R34). -/
def State.setDirty (s : State) (d : Bool) : State := { s with dirty := d }

/-- `MEM` (R35). -/
def State.setMem (s : State) (m : Memory) : State := { s with mem := m }

/-- `MODE <- m` (R36). -/
def State.setMode (s : State) (m : Mode) : State := { s with mode := m }

/-- `WAITX <- x` (R37). -/
def State.setWaitx (s : State) (x : Nibble) : State := { s with waitx := x }

/-- `FAULT <- r` (R38). -/
def State.setFault (s : State) (r : FaultRecord) : State := { s with fault := r }

/-- The model's own draw counter (log entry 3). -/
def State.setDraws (s : State) (n : Nat) : State := { s with draws := n }

/-- `KEY[k]` (R32). -/
def State.getKey (s : State) (k : Nibble) : Bool := s.key[k.toNat]

/-- `FB[row][col]` (R33, R206): column 0 is the leftmost pixel; false outside the grid. -/
def State.pixel (s : State) (row col : Nat) : Bool := if h : row < 32 then s.fb[row].getMsbD col else false

/-! ### The program counter -/

/-- The PC advance of R124, also the extra +2 of a taken skip (R148). -/
def State.advance (s : State) : State := s.setPc (s.pc + 2)

/-- The address `a` an instruction was fetched from, from the advanced PC it executes with (R25). -/
def State.instrAddr (s : State) : Word := s.pc - 2

/-! ### Memory -/

/-- `MEM[a]` without a check. -/
def State.readByte (s : State) (a : Nat) : Byte := Memory.get s.mem a

/-- The check of `MemRead` at one address (R62): the fault it raises and the offending address. -/
def readFault (a : Nat) : Option (FaultCause × Nat) :=
  if Config.memSize ≤ a then some (.memoryOutOfRange, a) else none

/-- The checks of `MemWrite` at one address, in the order of R63. -/
def writeFault (a : Nat) : Option (FaultCause × Nat) :=
  if Config.memSize ≤ a then some (.memoryOutOfRange, a)
  else if a < Config.fontBase + Config.fontSize then some (.fontWriteFault, a)
  else none

/-- Check before effect (R64): the checks of `len` addresses from `base` on, lowest first; the first failure is the
fault for the lowest failing address. -/
def firstFault (check : Nat → Option (FaultCause × Nat)) (base : Nat) : Nat → Option (FaultCause × Nat)
  | 0 => none
  | len + 1 =>
    match check base with
    | some f => some f
    | none => firstFault check (base + 1) len

/-- `len` bytes at rising addresses from `base` on (R66). -/
def State.readBytes (s : State) (base len : Nat) : List Byte := (List.range len).map fun k => s.readByte (base + k)

/-- Store bytes at rising addresses from `base` on (R66). -/
def State.storeBytes (s : State) (base : Nat) (bs : List Byte) : State := s.setMem (Memory.setBytes s.mem base bs)

/-- `MemRead(addr, 2)` without its check: big-endian (R62, R65). -/
def State.readWord (s : State) (a : Nat) : Word := wordOfBytes (s.readByte a) (s.readByte (a + 1))

/-! ### Entering a fault, and the one way out -/

/-- Fault entry (R263): `FAULT` is written and the mode becomes `FAULTED`; nothing else changes. -/
def State.raise (s : State) (cause : FaultCause) (opcode pc : Word) (addr : Nat) : State :=
  (s.setFault ⟨cause, opcode, pc, BitVec.ofNat 17 addr⟩).setMode .faulted

/-- A fault raised by an instruction that executes (R261): the record holds its word and the address it was fetched
from, and PC stays advanced. -/
def raiseIn (i : Instr) (cause : FaultCause) (addr : Nat) (s : State) : Host.Outcome State Fault Refusal :=
  .next (s.raise cause (encode i) s.instrAddr addr)

/-- Do `effect` if no check failed, else raise the fault found (R64: every check precedes every write). -/
def guarded (i : Instr) (failure : Option (FaultCause × Nat)) (effect : State → State) (s : State) :
    Host.Outcome State Fault Refusal :=
  match failure with
  | some (cause, addr) => raiseIn i cause addr s
  | none => .next (effect s)

/-- The only return from a fault is the host's `reset` (R266, R290), which installs every reset value. The model's own
draw counter is kept, so that the bytes drawn after a reset are fresh (log entry 3). -/
def State.resetOp (s : State) : State := State.reset.setDraws s.draws

/-! ### The stack (R29) -/

/-- Push, when an entry is free: `STACK[SP] <- w; SP <- SP + 1`. -/
def State.push? (s : State) (w : Word) : Option State :=
  if h : s.sp.val < 16 then some (s.setStack (s.stack.set s.sp.val w) ⟨s.sp.val + 1, by omega⟩) else none

/-- Pop, when an entry is valid: `SP <- SP - 1`, and the entry at the new SP, which keeps its value. -/
def State.pop? (s : State) : Option (Word × State) :=
  if h : 0 < s.sp.val then some (s.stack[s.sp.val - 1], s.setStack s.stack ⟨s.sp.val - 1, by omega⟩) else none

/-! ### What `step` answers -/

/-- The three results of a `step` (R127). -/
inductive StepResult where
  | ok
  | waiting
  | fault (cause : FaultCause)
  deriving DecidableEq, Repr

/-- The result of a `step`, a function of the state after it (R39 (d), R120, R127). -/
def State.stepResult (s : State) : StepResult :=
  match s.mode with
  | .run => .ok
  | .waitkey => .waiting
  | .faulted => .fault s.fault.cause

/-- The encoding of `MODE` (R36). -/
def Mode.code : Mode → BitVec 2
  | .run => 0
  | .waitkey => 1
  | .faulted => 2

/-- The code of a fault cause (R38, R261). -/
def FaultCause.code : FaultCause → BitVec 3
  | .none => 0
  | .unknownOpcode => 1
  | .stackOverflow => 2
  | .stackUnderflow => 3
  | .memoryOutOfRange => 4
  | .fontWriteFault => 5

end Sys2Proof.Machine
end

