-- ==== Sys2Proof/Machine/Flags.lean ====
section
/-! DEFINITION. Flags (spec/10_state.md R22, R23): the one flag is the register VF. Each flag value is 0x00 or 0x01,
computed from the registers before the instruction, and written last. -/

namespace Sys2Proof.Machine

/-- The register VF. -/
def VF : Nibble := 15

/-- A flag value as a byte: 0x01 or 0x00. -/
def flagByte (b : Bool) : Byte := if b then 1 else 0

/-- The 9-bit sum of two bytes (R166, R171). -/
def sum9 (a b : Byte) : BitVec 9 := a.setWidth 9 + b.setWidth 9

/-- Carry of `8xy4`: bit 8 of the 9-bit sum (R166). -/
def carryFlag (a b : Byte) : Byte := flagByte (sum9 a b)[8]

/-- No borrow of `8xy5` and `8xy7`: minuend at least the subtrahend, unsigned (R167, R169). -/
def noBorrowFlag (minuend subtrahend : Byte) : Byte := flagByte (decide (subtrahend ≤ minuend))

/-- The bit that `8xy6` shifts out: bit 0 (R168). -/
def lowBitFlag (a : Byte) : Byte := flagByte a[0]

/-- The bit that `8xyE` shifts out: bit 7 (R170). -/
def highBitFlag (a : Byte) : Byte := flagByte a[7]

/-- Write a result to `V[x]`, then the flag to VF: the flag-last order of R23, so that with x = 15 the flag stays. -/
def State.setVThenFlag (s : State) (x : Nibble) (result flag : Byte) : State := (s.setV x result).setV VF flag

end Sys2Proof.Machine
end

