-- ==== Sys2Proof/Machine/Operands.lean ====
section
/-! DEFINITION. Operand forms (spec/30_encoding.md R93, spec/43_index_memory.md R186): how an instruction's fields and the
state give the values it works on. A register `x` or `y` is `State.getV`; a byte `kk` is used as it is. -/

namespace Sys2Proof.Machine

/-- `zext_16(nnn)` (R93). -/
def address (nnn : Addr12) : Word := nnn.setWidth 16

/-- `zext_16(b)`: a byte widened to 16 bits for `Bnnn`, `Fx1E` and `Fx29` (R93). -/
def widen (b : Byte) : Word := b.setWidth 16

/-- The effective address `I + k`, an unbounded natural: it never wraps (R79, R186). -/
def State.effAddr (s : State) (k : Nat) : Nat := s.index.toNat + k

/-- How many registers `V0..Vx` are (R184, R185: the instruction moves x + 1 registers). -/
def runLength (x : Nibble) : Nat := x.toNat + 1

/-- The registers V0..Vx, V0 first (R184). -/
def State.registerRun (s : State) (x : Nibble) : List Byte := s.v.toList.take (runLength x)

/-- V0..Vx taken from memory at `base`, the others kept (R185). -/
def State.loadRun (s : State) (x : Nibble) (base : Nat) : Vector Byte 16 :=
  Vector.ofFn fun i => if i.val < runLength x then s.readByte (base + i.val) else s.v[i]

/-- The three decimal digits of a byte: hundreds, tens, ones (R183). -/
def decimalDigits (b : Byte) : List Byte := [b / 100, b / 10 % 10, b % 10]

/-- The key that `Ex9E` and `ExA1` select: the low four bits of Vx (R223, log entry 12). -/
def keySelect (b : Byte) : Nibble := b.extractLsb' 0 4

/-- The address of the glyph of a digit: the formula of R182, on all eight bits of Vx (log entry 13). -/
def glyphAddr (b : Byte) : Word := BitVec.ofNat 16 Config.fontBase + 5 * widen b

/-- The start column of a sprite (R202). -/
def startCol (b : Byte) : Nat := b.toNat % 64

/-- The start row of a sprite (R202). -/
def startRow (b : Byte) : Nat := b.toNat % 32

/-- `draw8()` (R246): the next random byte, a free value (log entry 3). -/
def State.drawByte (s : State) : Byte := Config.freeByte s.draws

/-- The draw is consumed: the next one is another. -/
def State.nextDraw (s : State) : State := s.setDraws (s.draws + 1)

end Sys2Proof.Machine
end

