-- ==== Sys2Proof/Machine/Alu.lean ====
section
/-! DEFINITION. Register load, add-immediate and the group 8xy_ (spec/42_load_alu.md). All arithmetic is on unsigned
bytes modulo 256 (R171); none of these can fault. -/

namespace Sys2Proof.Machine

/-- `6xkk`, load immediate (R160). -/
def exec6xkk (x : Nibble) (kk : Byte) (s : State) : Host.Outcome State Fault Refusal := .next (s.setV x kk)

/-- `7xkk`, add immediate, no flag (R161). -/
def exec7xkk (x : Nibble) (kk : Byte) (s : State) : Host.Outcome State Fault Refusal :=
  .next (s.setV x (s.getV x + kk))

/-- `8xy0`, copy register (R162). -/
def exec8xy0 (x y : Nibble) (s : State) : Host.Outcome State Fault Refusal := .next (s.setV x (s.getV y))

/-- `8xy1`, OR, no flag (R163). -/
def exec8xy1 (x y : Nibble) (s : State) : Host.Outcome State Fault Refusal :=
  .next (s.setV x (s.getV x ||| s.getV y))

/-- `8xy2`, AND, no flag (R164). -/
def exec8xy2 (x y : Nibble) (s : State) : Host.Outcome State Fault Refusal :=
  .next (s.setV x (s.getV x &&& s.getV y))

/-- `8xy3`, XOR, no flag (R165). -/
def exec8xy3 (x y : Nibble) (s : State) : Host.Outcome State Fault Refusal :=
  .next (s.setV x (s.getV x ^^^ s.getV y))

/-- `8xy4`, add with carry out (R166). -/
def exec8xy4 (x y : Nibble) (s : State) : Host.Outcome State Fault Refusal :=
  .next (s.setVThenFlag x ((sum9 (s.getV x) (s.getV y)).setWidth 8) (carryFlag (s.getV x) (s.getV y)))

/-- `8xy5`, Vx − Vy (R167). -/
def exec8xy5 (x y : Nibble) (s : State) : Host.Outcome State Fault Refusal :=
  .next (s.setVThenFlag x (s.getV x - s.getV y) (noBorrowFlag (s.getV x) (s.getV y)))

/-- `8xy6`, shift Vx right by one; Vy is ignored (R168). -/
def exec8xy6 (x _y : Nibble) (s : State) : Host.Outcome State Fault Refusal :=
  .next (s.setVThenFlag x (s.getV x >>> 1) (lowBitFlag (s.getV x)))

/-- `8xy7`, Vy − Vx (R169). -/
def exec8xy7 (x y : Nibble) (s : State) : Host.Outcome State Fault Refusal :=
  .next (s.setVThenFlag x (s.getV y - s.getV x) (noBorrowFlag (s.getV y) (s.getV x)))

/-- `8xyE`, shift Vx left by one; Vy is ignored (R170). -/
def exec8xyE (x _y : Nibble) (s : State) : Host.Outcome State Fault Refusal :=
  .next (s.setVThenFlag x (s.getV x <<< 1) (highBitFlag (s.getV x)))

end Sys2Proof.Machine
end

