-- ==== Sys2Proof/Machine/Control.lean ====
section
/-! DEFINITION. Control flow (spec/41_control_flow.md). In every meaning `s.pc` is the advanced PC: the instruction's own
address plus 2 (spec/10_state.md R25). -/

namespace Sys2Proof.Machine

/-- Skip (R148): a taken skip adds 2 to the advanced PC. -/
def skipIf (taken : Bool) (s : State) : State := if taken then s.advance else s

/-- `00EE`, return (R140). -/
def exec00EE (s : State) : Host.Outcome State Fault Refusal :=
  match s.pop? with
  | some (target, popped) => .next (popped.setPc target)
  | none => raiseIn .op00EE .stackUnderflow 0 s

/-- `1nnn`, jump (R141). -/
def exec1nnn (nnn : Addr12) (s : State) : Host.Outcome State Fault Refusal := .next (s.setPc (address nnn))

/-- `2nnn`, call (R142): the advanced PC is pushed. -/
def exec2nnn (nnn : Addr12) (s : State) : Host.Outcome State Fault Refusal :=
  match s.push? s.pc with
  | some pushed => .next (pushed.setPc (address nnn))
  | none => raiseIn (.op2nnn nnn) .stackOverflow 0 s

/-- `3xkk`, skip if Vx = kk (R143). -/
def exec3xkk (x : Nibble) (kk : Byte) (s : State) : Host.Outcome State Fault Refusal :=
  .next (skipIf (s.getV x == kk) s)

/-- `4xkk`, skip if Vx ≠ kk (R144). -/
def exec4xkk (x : Nibble) (kk : Byte) (s : State) : Host.Outcome State Fault Refusal :=
  .next (skipIf (s.getV x != kk) s)

/-- `5xy0`, skip if Vx = Vy (R145). -/
def exec5xy0 (x y : Nibble) (s : State) : Host.Outcome State Fault Refusal :=
  .next (skipIf (s.getV x == s.getV y) s)

/-- `9xy0`, skip if Vx ≠ Vy (R146). -/
def exec9xy0 (x y : Nibble) (s : State) : Host.Outcome State Fault Refusal :=
  .next (skipIf (s.getV x != s.getV y) s)

/-- `Bnnn`, jump to nnn + V0, in 16 bits, not reduced to 12 (R147). -/
def execBnnn (nnn : Addr12) (s : State) : Host.Outcome State Fault Refusal :=
  .next (s.setPc (address nnn + widen (s.getV 0)))

end Sys2Proof.Machine
end

