-- ==== Sys2Proof/Machine/Display.lean ====
section
/-! DEFINITION. Display (spec/44_display.md): `00E0`, `Dxyn`. Orientation and bit order are R206's: rows go down, bit 7 of
a sprite byte is the leftmost pixel (log entry 2). -/

namespace Sys2Proof.Machine

/-- The pixels one sprite byte covers in its row, bit 7 at column `px`; those right of column 63 are dropped (R203). -/
def spriteRow (b : Byte) (px : Nat) : BitVec 64 := (b.setWidth 64 <<< 56) >>> px

/-- XOR sprite bytes onto successive rows from `row` on, dropping the rows below the screen (R201, R203), and whether a
lit pixel was unset (R204). -/
def drawRows : List Byte → (px row : Nat) → Vector (BitVec 64) 32 → Vector (BitVec 64) 32 × Bool
  | [], _, _, fb => (fb, false)
  | b :: bs, px, row, fb =>
    if h : row < 32 then
      let pixels := spriteRow b px
      let drawn := drawRows bs px (row + 1) (fb.set row (fb[row] ^^^ pixels))
      (drawn.1, drawn.2 || fb[row] &&& pixels != 0)
    else (fb, false)

/-- What `Dxyn` draws: the sprite at I, n bytes, from the start position of R202. -/
def State.drawn (s : State) (x y n : Nibble) : Vector (BitVec 64) 32 × Bool :=
  drawRows (s.readBytes (s.effAddr 0) n.toNat) (startCol (s.getV x)) (startRow (s.getV y)) s.fb

/-- `00E0`, clear the display and mark it dirty (R200, R209). -/
def exec00E0 (s : State) : Host.Outcome State Fault Refusal :=
  .next ((s.setFb (Vector.replicate 32 0)).setDirty true)

/-- `Dxyn`, draw a sprite (R201): all n addresses are checked (R205), VF := collision last, dirty always. -/
def execDxyn (x y n : Nibble) (s : State) : Host.Outcome State Fault Refusal :=
  guarded (.opDxyn x y n) (firstFault readFault (s.effAddr 0) n.toNat)
    (fun t => ((t.setFb (t.drawn x y n).1).setV VF (flagByte (t.drawn x y n).2)).setDirty true) s

end Sys2Proof.Machine
end

