-- ==== Sys2Proof/Machine/IndexMem.lean ====
section
/-! DEFINITION. Index register and memory transfer (spec/43_index_memory.md). I is never changed by an access (R186);
every check of an instruction precedes every write (spec/20_memory.md R64). -/

namespace Sys2Proof.Machine

/-- `Annn`, load index (R180). -/
def execAnnn (nnn : Addr12) (s : State) : Host.Outcome State Fault Refusal := .next (s.setI (address nnn))

/-- `Fx1E`, I + Vx modulo 65536, no flag (R181). -/
def execFx1E (x : Nibble) (s : State) : Host.Outcome State Fault Refusal :=
  .next (s.setI (s.index + widen (s.getV x)))

/-- `Fx29`, point I at a glyph (R182). -/
def execFx29 (x : Nibble) (s : State) : Host.Outcome State Fault Refusal := .next (s.setI (glyphAddr (s.getV x)))

/-- `Fx33`, store the decimal digits of Vx at I, I+1, I+2 (R183). -/
def execFx33 (x : Nibble) (s : State) : Host.Outcome State Fault Refusal :=
  guarded (.opFx33 x) (firstFault writeFault (s.effAddr 0) 3)
    (fun t => t.storeBytes (t.effAddr 0) (decimalDigits (t.getV x))) s

/-- `Fx55`, store V0..Vx at I.. (R184). -/
def execFx55 (x : Nibble) (s : State) : Host.Outcome State Fault Refusal :=
  guarded (.opFx55 x) (firstFault writeFault (s.effAddr 0) (runLength x))
    (fun t => t.storeBytes (t.effAddr 0) (t.registerRun x)) s

/-- `Fx65`, load V0..Vx from I.. (R185). -/
def execFx65 (x : Nibble) (s : State) : Host.Outcome State Fault Refusal :=
  guarded (.opFx65 x) (firstFault readFault (s.effAddr 0) (runLength x))
    (fun t => t.setVs (t.loadRun x (t.effAddr 0))) s

end Sys2Proof.Machine
end

