-- ==== Sys2Proof/Machine/Keypad.lean ====
section
/-! DEFINITION. Keypad (spec/45_keypad.md): `Ex9E` and `ExA1` read the latch (the level), `Fx0A` waits for a press (the
edge) and never reads the latch (R225). -/

namespace Sys2Proof.Machine

/-- `Ex9E`, skip if the key is pressed (R220, R223). -/
def execEx9E (x : Nibble) (s : State) : Host.Outcome State Fault Refusal :=
  .next (skipIf (s.getKey (keySelect (s.getV x))) s)

/-- `ExA1`, skip if the key is not pressed (R221, R223). -/
def execExA1 (x : Nibble) (s : State) : Host.Outcome State Fault Refusal :=
  .next (skipIf (!s.getKey (keySelect (s.getV x))) s)

/-- `Fx0A`, begin to wait for a key (R222): Vx is written later, by `key_press`. -/
def execFx0A (x : Nibble) (s : State) : Host.Outcome State Fault Refusal :=
  .next ((s.setWaitx x).setMode .waitkey)

end Sys2Proof.Machine
end

