-- ==== Sys2Proof/Machine/Timers.lean ====
section
/-! DEFINITION. Timer instructions and the random byte (spec/46_timers_random.md). -/

namespace Sys2Proof.Machine

/-- `Fx07`, Vx := DT (R240). -/
def execFx07 (x : Nibble) (s : State) : Host.Outcome State Fault Refusal := .next (s.setV x s.dt)

/-- `Fx15`, DT := Vx (R241). -/
def execFx15 (x : Nibble) (s : State) : Host.Outcome State Fault Refusal := .next (s.setDt (s.getV x))

/-- `Fx18`, ST := Vx, no event (R242). -/
def execFx18 (x : Nibble) (s : State) : Host.Outcome State Fault Refusal := .next (s.setSt (s.getV x))

/-- `Cxkk` with the random byte `rnd` given (R243): the spec's own form, in which `rnd` is an argument of the step. -/
def randomMasked (rnd : Byte) (x : Nibble) (kk : Byte) (s : State) : State := s.setV x (rnd &&& kk)

/-- `Cxkk` (R243): the byte is the next free draw, which is consumed (R246). -/
def execCxkk (x : Nibble) (kk : Byte) (s : State) : Host.Outcome State Fault Refusal :=
  .next (randomMasked s.drawByte x kk s.nextDraw)

end Sys2Proof.Machine
end

