-- ==== Sys2Proof/Machine/Fetch.lean ====
section
/-! DEFINITION. Fetch (spec/40_fetch_decode_dispatch.md R123), and placing one instruction where the next step fetches. -/

namespace Sys2Proof.Machine

/-- The fault check of a fetch: `PC` and `PC + 1` must be readable; the lowest failing address is reported (R62, R123). -/
def State.fetchFault (s : State) : Option (FaultCause × Nat) := firstFault readFault s.pc.toNat 2

/-- The fetched word: `MEM[PC]` in the high half, `MEM[PC+1]` in the low (R65, R123). -/
def State.fetchWord (s : State) : Word := s.readWord s.pc.toNat

/-- A fetch that faults (R123, R261): PC is unchanged and the record's opcode is 0. -/
def State.raiseAtFetch (s : State) (cause : FaultCause) (addr : Nat) : State := s.raise cause 0 s.pc addr

/-- The fault of a word that is no instruction (R126, R261), on the state whose PC is already advanced. -/
def State.raiseUnknown (s : State) (w : Word) : State := s.raise .unknownOpcode w s.instrAddr 0

/-- Where a placed instruction goes: at PC if a fetch there succeeds, else at `PROG_BASE` (log entry 7). -/
def State.placePc (s : State) : Word := if s.pc.toNat + 1 < Config.memSize then s.pc else BitVec.ofNat 16 Config.progBase

/-- The state with a word stored where the next step fetches, ready to run it (log entry 7): the two bytes, the PC, and
the mode that fetches. -/
def State.placeWord (s : State) (w : Word) : State :=
  ((s.storeBytes s.placePc.toNat [highByte w, lowByte w]).setPc s.placePc).setMode .run

end Sys2Proof.Machine
end

