-- ==== Sys2Proof/Machine/Step.lean ====
section
/-! DEFINITION. The `step` operation (spec/40_fetch_decode_dispatch.md R120 to R127). -/

namespace Sys2Proof.Machine

/-- One step (R120): nothing in `FAULTED` (R121) and `WAITKEY` (R122); in `RUN`, fetch, advance PC, decode, execute. -/
def step (s : State) : Host.Outcome State Fault Refusal :=
  match s.mode with
  | .faulted => .next s
  | .waitkey => .next s
  | .run =>
    match s.fetchFault with
    | some (cause, addr) => .next (s.raiseAtFetch cause addr)
    | none =>
      match decodeWord s.fetchWord with
      | .ok i => exec i s.advance
      | .error _ => .next (s.advance.raiseUnknown s.fetchWord)

/-- The state in which the next step runs the instruction of the opcode-table word `w` of `nbits` bits (log entry 7). -/
def State.withFetchWord (s : State) (nbits w : Nat) : State := s.placeWord (BitVec.ofNat 16 (w % 2 ^ nbits))

end Sys2Proof.Machine
end

