-- ==== Sys2Proof/Machine/HostOps.lean ====
section
/-! DEFINITION. What the host can do to the core besides `step` (spec/00_scope.md R7): each operation is atomic and acts in
every mode. `reset` is `State.resetOp` (Machine/Ops.lean). -/

namespace Sys2Proof.Machine

/-- `load_program` (R293, R294): the state with the program at 0x200, or `none` for `RomTooLarge`, which changes nothing. -/
def State.loadProgram? (s : State) (bytes : List Byte) : Option State :=
  if bytes.length ≤ Config.romMax then some (s.storeBytes Config.progBase bytes) else none

/-- `set_keys` (R226): all sixteen bits of the latch at once. -/
def State.setKeysOp (s : State) (keys : Vector Bool 16) : State := s.setKey keys

/-- `key_press` (R227): completes a pending `Fx0A`; outside a wait it is dropped (log entry 17). -/
def State.keyPress (s : State) (k : Nibble) : State :=
  match s.mode with
  | .waitkey => (s.setV s.waitx (k.setWidth 8)).setMode .run
  | .run => s
  | .faulted => s

/-- One tick of one timer (R248): down by one when nonzero. -/
def countDown (t : Byte) : Byte := if t = 0 then 0 else t - 1

/-- `tick_timers` (R248, R250): both timers, in every mode. -/
def State.tickTimers (s : State) : State := (s.setDt (countDown s.dt)).setSt (countDown s.st)

/-- The `sound_stop` output of a tick, from ST before it (R248, R249). -/
def State.soundStop (s : State) : Bool := s.st == 1

/-- `ack_draw` (R208). -/
def State.ackDraw (s : State) : State := s.setDirty false

/-- What the host reads out (R207, R268): the framebuffer, the dirty flag, the mode and the fault record. -/
structure View where
  fb : Vector (BitVec 64) 32
  dirty : Bool
  mode : Mode
  fault : FaultRecord
  deriving DecidableEq, Repr

/-- The read-out, which changes nothing (R207, R268). -/
def State.view (s : State) : View := ⟨s.fb, s.dirty, s.mode, s.fault⟩

end Sys2Proof.Machine
end

