-- ==== Sys2Proof/Machine/Operations.lean ====
section
/-! DEFINITION. All operations through which anything at all happens to the core (spec/00_scope.md R7 to R9), as one type. -/

namespace Sys2Proof.Machine

/-- The operations of R7. -/
inductive Operation where
  | reset
  | loadProgram (bytes : List Byte)
  | setKeys (keys : Vector Bool 16)
  | keyPress (k : Nibble)
  | step
  | tickTimers
  | ackDraw
  | readOut
  deriving DecidableEq, Repr

/-- What an operation answers (R7). -/
inductive Reply where
  /-- no result -/
  | done
  /-- `load_program` succeeded -/
  | loaded
  /-- `load_program` refused the program (R294) -/
  | romTooLarge
  | stepped (r : StepResult)
  | ticked (soundStop : Bool)
  | view (v : View)
  deriving DecidableEq, Repr

/-- One operation (R8: atomic; a function of the state before and its argument). -/
def operate (op : Operation) (s : State) : Host.Outcome (State × Reply) Fault Refusal :=
  match op with
  | .reset => .next (s.resetOp, .done)
  | .loadProgram bytes =>
    match s.loadProgram? bytes with
    | some t => .next (t, .loaded)
    | none => .next (s, .romTooLarge)
  | .setKeys keys => .next (s.setKeysOp keys, .done)
  | .keyPress k => .next (s.keyPress k, .done)
  | .step =>
    match step s with
    | .next t => .next (t, .stepped t.stepResult)
    | .fault r => .fault r
    | .refused r => .refused r
  | .tickTimers => .next (s.tickTimers, .ticked s.soundStop)
  | .ackDraw => .next (s.ackDraw, .done)
  | .readOut => .next (s, .view s.view)

end Sys2Proof.Machine
end

