-- ==== Sys2Proof/Safety.lean ====
section
/-! DEFINITION. The terms claims use: what an operation may change (`ChangesOnly`, spec/40_fetch_decode_dispatch.md R131),
what holds of every legal state (`State.Inv`), and the states a host can bring about (`Reachable`, spec/00_scope.md R9). -/

namespace Sys2Proof.Machine

/-- The elements of the state (R20), each by itself. -/
inductive Component where
  | v | index | pc | stack | sp | dt | st | key | fb | dirty | mem | mode | waitx | fault | draws
  deriving DecidableEq, Repr

/-- The two states hold the same in one element; memory is compared byte by byte through the model's read. -/
def State.Agree (s t : State) : Component → Prop
  | .v => ∀ j : Nibble, t.getV j = s.getV j
  | .index => t.index = s.index
  | .pc => t.pc = s.pc
  | .stack => t.stack = s.stack
  | .sp => t.sp = s.sp
  | .dt => t.dt = s.dt
  | .st => t.st = s.st
  | .key => t.key = s.key
  | .fb => t.fb = s.fb
  | .dirty => t.dirty = s.dirty
  | .mem => ∀ a : Nat, t.readByte a = s.readByte a
  | .mode => t.mode = s.mode
  | .waitx => t.waitx = s.waitx
  | .fault => t.fault = s.fault
  | .draws => t.draws = s.draws

/-- FRAME: every element outside the list is as before. -/
def State.ChangesOnly (s : State) (may : List Component) (t : State) : Prop := ∀ c, c ∉ may → s.Agree t c

/-- One V register may change and nothing else. -/
def State.OnlyRegister (s : State) (x : Nibble) (t : State) : Prop :=
  (∀ j, j ≠ x → t.getV j = s.getV j) ∧ s.ChangesOnly [.v] t

/-- One V register and the flag register VF may change and nothing else (R22). -/
def State.OnlyRegisterAndFlag (s : State) (x : Nibble) (t : State) : Prop :=
  (∀ j, j ≠ x → j ≠ 15 → t.getV j = s.getV j) ∧ s.ChangesOnly [.v] t

/-- FAULT ENTRY (R263): the record is written, the mode is `FAULTED`, nothing else changes. -/
def State.EntersFault (s : State) (cause : FaultCause) (opcode pc : Word) (addr : Nat) (t : State) : Prop :=
  t.mode = .faulted ∧ t.fault.cause = cause ∧ t.fault.opcode = opcode ∧ t.fault.pc = pc ∧ t.fault.addr.toNat = addr ∧
    s.ChangesOnly [.mode, .fault] t

/-- The elements an instruction may write when it does not fault: the column "written by" of R20, with R131. PC is listed
only where the instruction moves it beyond the step's own advance; `draws` is the model's own. -/
def instrWrites : Instr → List Component
  | .op00E0 => [.fb, .dirty]
  | .op00EE => [.pc, .sp]
  | .op1nnn _ => [.pc]
  | .op2nnn _ => [.pc, .stack, .sp]
  | .op3xkk _ _ => [.pc]
  | .op4xkk _ _ => [.pc]
  | .op5xy0 _ _ => [.pc]
  | .op6xkk _ _ => [.v]
  | .op7xkk _ _ => [.v]
  | .op8xy0 _ _ => [.v]
  | .op8xy1 _ _ => [.v]
  | .op8xy2 _ _ => [.v]
  | .op8xy3 _ _ => [.v]
  | .op8xy4 _ _ => [.v]
  | .op8xy5 _ _ => [.v]
  | .op8xy6 _ _ => [.v]
  | .op8xy7 _ _ => [.v]
  | .op8xyE _ _ => [.v]
  | .op9xy0 _ _ => [.pc]
  | .opAnnn _ => [.index]
  | .opBnnn _ => [.pc]
  | .opCxkk _ _ => [.v, .draws]
  | .opDxyn _ _ _ => [.v, .fb, .dirty]
  | .opEx9E _ => [.pc]
  | .opExA1 _ => [.pc]
  | .opFx07 _ => [.v]
  | .opFx0A _ => [.mode, .waitx]
  | .opFx15 _ => [.dt]
  | .opFx18 _ => [.st]
  | .opFx1E _ => [.index]
  | .opFx29 _ => [.index]
  | .opFx33 _ => [.mem]
  | .opFx55 _ => [.mem]
  | .opFx65 _ => [.v]

/-- What a fault record may hold (R38, R261, 92_eei_decisions.md D4): nothing but zeros when no fault is latched, an
address only with the two memory causes, and there one that the cause's check rejects. -/
def FaultRecord.Legal (r : FaultRecord) : Prop :=
  match r.cause with
  | .none => r = FaultRecord.clear
  | .memoryOutOfRange => 0x1000 ≤ r.addr.toNat ∧ r.addr.toNat ≤ 0xFFFF
  | .fontWriteFault => r.addr.toNat ≤ 0x04F
  | .unknownOpcode => r.addr = 0
  | .stackOverflow => r.addr = 0
  | .stackUnderflow => r.addr = 0

/-- What holds of the state between any two operations. -/
structure State.Inv (s : State) : Prop where
  /-- memory is in canonical form, inside the address space -/
  memCanonical : Memory.wf s.mem = true
  /-- the font is as reset installed it (R61, R63) -/
  fontIntact : ∀ a, a < Config.fontSize → s.readByte a = fontByte a
  /-- PC never exceeds 0x10FE (R27 (d)) -/
  pcBound : s.pc.toNat ≤ 0x10FE
  /-- a valid stack entry is an advanced PC, 0x0002..0x1000 (R28) -/
  returnAddresses : ∀ i, (h : i < 16) → i < s.sp.val → 2 ≤ s.stack[i].toNat ∧ s.stack[i].toNat ≤ 0x1000
  /-- a fault is latched exactly in mode `FAULTED` (R36, R38) -/
  faultLatched : s.mode = .faulted ↔ s.fault.cause ≠ .none
  /-- the record is one a fault writes (R261) -/
  faultLegal : s.fault.Legal

/-- The states a host can bring about: reset, then any operations in any order (R9, R292). -/
inductive Reachable : State → Prop where
  | reset : Reachable State.reset
  | operation {s t : State} {r : Reply} (op : Operation) : Reachable s → operate op s = .next (t, r) → Reachable t

/-- A run is safe as long as no fault is latched (R300: a fault is never a successful end). -/
abbrev State.Safe (s : State) : Prop := s.mode ≠ .faulted

/-- The sprite pixel, if any, that a sprite of `n` bytes at memory address `base`, drawn from (`py`, `px`), has at a
screen position: bit 7 of a byte is at column `px`, byte `r` on row `py + r` (R201, R206). -/
def State.spritePixel (s : State) (base n py px row col : Nat) : Bool :=
  decide (py ≤ row) && decide (row < py + n) && decide (px ≤ col) && decide (col < px + 8) &&
    (s.readByte (base + (row - py))).getLsbD (7 - (col - px))

end Sys2Proof.Machine
end

