-- ==== Sys2Proof/Certificates/Slice0/Obligations.lean ====
section
/-! DEFINITION. The statements for the provers. In every statement about `exec` the state given is the one an instruction
executes in: its PC is the advanced PC, the instruction's own address plus 2 (spec/10_state.md R25), so "PC unchanged"
there says that the instruction leaves PC at its address plus 2, and the address it was fetched from is `s.pc - 2`.
Words are written out from the spec's patterns, never with the model's encoder. -/

open Sys2Proof Sys2Proof.Machine

/-! ### Encoding -/

/-- Decoding the two bytes of any instruction gives it back, with every operand at every value its field admits, and
leaves the bytes after it (30_encoding.md sections 1 to 3; D10). -/
def Obligations.DecodeOfEncodeIsTheInstruction : Prop :=
  ∀ (i : Instr) (rest : List Byte), decode (encodeBytes i ++ rest) = .ok (i, rest)

/-- No bit of a valid word is dropped: a word that decodes is the encoding of what it decodes to (30_encoding.md
section 3; 93_implementation_defined.md section 1: every bit of a valid word is an opcode bit or an operand bit). -/
def Obligations.EncodeOfDecodeIsTheWord : Prop :=
  ∀ (w : Word) (i : Instr), decodeWord w = .ok i → encode i = w

/-- The complete list of unknown words, each refused by name; and a step that fetches one raises `UnknownOpcode` with the
word recorded, PC already past it, and changes nothing else (30_encoding.md section 3; 60_exceptions.md sections 1, 2).
The strict list is the spec's own decision D10 (log entry 21), the latch and the recorded word D2 and D4 (log entry 5),
that nothing else changes D7 (log entry 16). -/
def Obligations.UnknownWordsAreThoseListed : Prop :=
  (∀ w : Word, decodeWord w = .error (.unknownOpcode w) ↔
    (fieldOp w = 0x0 ∧ fieldNNN w ≠ 0x0E0 ∧ fieldNNN w ≠ 0x0EE) ∨
    (fieldOp w = 0x5 ∧ fieldN w ≠ 0x0) ∨
    (fieldOp w = 0x8 ∧ fieldN w ∈ [0x8#4, 0x9#4, 0xA#4, 0xB#4, 0xC#4, 0xD#4, 0xF#4]) ∨
    (fieldOp w = 0x9 ∧ fieldN w ≠ 0x0) ∨
    (fieldOp w = 0xE ∧ fieldKK w ∉ [0x9E#8, 0xA1#8]) ∨
    (fieldOp w = 0xF ∧ fieldKK w ∉ [0x07#8, 0x0A#8, 0x15#8, 0x18#8, 0x1E#8, 0x29#8, 0x33#8, 0x55#8, 0x65#8])) ∧
  ∀ s : State, s.mode = .run → s.pc.toNat ≤ 0xFFE →
    decodeWord (wordOfBytes (s.readByte s.pc.toNat) (s.readByte (s.pc.toNat + 1))) =
      .error (.unknownOpcode (wordOfBytes (s.readByte s.pc.toNat) (s.readByte (s.pc.toNat + 1)))) →
    ∃ t, step s = .next t ∧ t.mode = .faulted ∧ t.fault.cause = .unknownOpcode ∧
      t.fault.opcode = wordOfBytes (s.readByte s.pc.toNat) (s.readByte (s.pc.toNat + 1)) ∧
      t.pc.toNat = s.pc.toNat + 2 ∧ s.ChangesOnly [.pc, .mode, .fault] t

/-- The decoder is the opcode table of R96: a word is an instruction exactly when a row's bits match under its mask, and
the rows that match are those of the decoded instruction's own mnemonic (30_encoding.md section 3; D10). -/
def Obligations.DecoderAgreesWithTheOpcodeTable : Prop :=
  (∀ w : Word, (∃ i, decodeWord w = .ok i) ↔ ∃ r ∈ opcodeTable, r.fits w = true) ∧
  ∀ (w : Word) (i : Instr), decodeWord w = .ok i →
    ∀ r ∈ opcodeTable, (r.fits w = true ↔ r.mnemonic = i.raw.mnemonic)

/-- A few words of 95_test_vectors.md, one a family: six of its decoding table (part B-E), `D125` of part B-D (D2) and
`F533` of part B-M (M9). -/
def Obligations.SampleWordsDecode : Prop :=
  decodeWord 0x00EE = .ok .op00EE ∧ decodeWord 0x2FFF = .ok (.op2nnn 0xFFF) ∧ decodeWord 0x5120 = .ok (.op5xy0 1 2) ∧
  decodeWord 0x8ABE = .ok (.op8xyE 0xA 0xB) ∧ decodeWord 0xC5A7 = .ok (.opCxkk 5 0xA7) ∧
  decodeWord 0xD125 = .ok (.opDxyn 1 2 5) ∧ decodeWord 0xE0A1 = .ok (.opExA1 0) ∧ decodeWord 0xF533 = .ok (.opFx33 5)

/-! ### The step -/

/-- When the two bytes at PC decode to an instruction, the step is that instruction on the state with PC advanced by 2,
which does not wrap (40_fetch_decode_dispatch.md sections 1 to 3). -/
def Obligations.StepRunsTheDecodedInstruction : Prop :=
  ∀ (s : State) (i : Instr), s.mode = .run → s.pc.toNat ≤ 0xFFE →
    decodeWord (wordOfBytes (s.readByte s.pc.toNat) (s.readByte (s.pc.toNat + 1))) = .ok i →
    step s = exec i (s.setPc (s.pc + 2)) ∧ (s.pc + 2).toNat = s.pc.toNat + 2

/-- A fetch with PC above 0xFFE enters `MemoryOutOfRange`, PC unchanged, opcode 0, the lowest bad address recorded
(40_fetch_decode_dispatch.md section 2; the spec's own decision D8). -/
def Obligations.FetchAboveTheLastWordFaults : Prop :=
  ∀ s : State, s.mode = .run → 0xFFF ≤ s.pc.toNat →
    ∃ t, step s = .next t ∧ s.EntersFault .memoryOutOfRange 0 s.pc (max s.pc.toNat 0x1000) t

/-- R122: while waiting for a key a step changes nothing and answers `Waiting`, whatever PC is. -/
def Obligations.StepWhileWaitingChangesNothing : Prop :=
  ∀ s : State, s.mode = .waitkey → operate .step s = .next (s, .stepped .waiting)

/-- R130: from every state a step yields exactly one next state and one result; nothing is stuck, refused or undefined. -/
def Obligations.StepIsTotal : Prop :=
  ∀ s : State, ∃ t, step s = .next t ∧ operate .step s = .next (t, .stepped t.stepResult)

/-- A step answers `Waiting` exactly when it executed `Fx0A` (40_fetch_decode_dispatch.md section 3; D2). -/
def Obligations.StepAnswersWaitingExactlyAfterKeyWait : Prop :=
  ∀ s t : State, s.mode = .run → step s = .next t →
    (t.stepResult = .waiting ↔ s.pc.toNat ≤ 0xFFE ∧
      ∃ x, decodeWord (wordOfBytes (s.readByte s.pc.toNat) (s.readByte (s.pc.toNat + 1))) = .ok (.opFx0A x))

/-- What one instruction may write, for all 34 at once: the elements R20 lists for it, or, when it faults, `MODE` and
`FAULT` and nothing else (10_state.md section 1; 40_fetch_decode_dispatch.md section 4). -/
def Obligations.InstructionsWriteOnlyTheirElements : Prop :=
  ∀ (i : Instr) (s t : State), s.Safe → exec i s = .next t →
    (t.Safe ∧ s.ChangesOnly (instrWrites i) t) ∨ (¬ t.Safe ∧ s.ChangesOnly [.mode, .fault] t)

/-- Steps and devices (40_fetch_decode_dispatch.md section 4): no step writes the key latch or clears the dirty flag; DT
moves only by `Fx15`, ST only by `Fx18`; a random byte is consumed only by `Cxkk` (the counter is the model's own, log
entry 3). -/
def Obligations.StepsLeaveDevicesToTheirInstructions : Prop :=
  ∀ s t : State, step s = .next t →
    t.key = s.key ∧ (s.dirty = true → t.dirty = true) ∧
    (t.dt ≠ s.dt → ∃ x, decodeWord s.fetchWord = .ok (.opFx15 x)) ∧
    (t.st ≠ s.st → ∃ x, decodeWord s.fetchWord = .ok (.opFx18 x)) ∧
    (t.draws ≠ s.draws → ∃ x kk, decodeWord s.fetchWord = .ok (.opCxkk x kk))

/-- No step but `Ex9E` and `ExA1` reads the key latch: with another latch the step does the same
(40_fetch_decode_dispatch.md section 4; 45_keypad.md section 1: `Fx0A` never looks at `KEY`). -/
def Obligations.OnlyKeySkipsReadTheLatch : Prop :=
  ∀ (s t : State) (keys : Vector Bool 16),
    (∀ x, decodeWord s.fetchWord ≠ .ok (.opEx9E x)) → (∀ x, decodeWord s.fetchWord ≠ .ok (.opExA1 x)) →
    step s = .next t → step (s.setKey keys) = .next (t.setKey keys)

/-! ### Load and ALU -/

/-- R160: `6xkk` loads the byte; no other register and nothing else changes. -/
def Obligations.LoadImmediate : Prop :=
  (∀ (x : Nibble) (kk : Byte), decodeWord (0x6#4 ++ x ++ kk) = .ok (.op6xkk x kk)) ∧
  ∀ (x : Nibble) (kk : Byte) (s : State), ∃ t, exec (.op6xkk x kk) s = .next t ∧
    t.getV x = kk ∧ s.OnlyRegister x t

/-- R161: `7xkk` adds modulo 256 and writes no flag; two in a row compose to one. -/
def Obligations.AddImmediate : Prop :=
  (∀ (x : Nibble) (kk : Byte), decodeWord (0x7#4 ++ x ++ kk) = .ok (.op7xkk x kk)) ∧
  (∀ (x : Nibble) (kk : Byte) (s : State), ∃ t, exec (.op7xkk x kk) s = .next t ∧
    (t.getV x).toNat = ((s.getV x).toNat + kk.toNat) % 256 ∧ s.OnlyRegister x t) ∧
  ∀ (x : Nibble) (k l m : Byte) (s : State), m.toNat = (k.toNat + l.toNat) % 256 →
    ∃ t u w, exec (.op7xkk x k) s = .next t ∧ exec (.op7xkk x l) t = .next u ∧ exec (.op7xkk x m) s = .next w ∧
      u.getV x = w.getV x

/-- R162 to R165: copy, OR, AND and XOR, bit by bit, from the values before; no flag is written. -/
def Obligations.CopyAndLogic : Prop :=
  (∀ x y : Nibble, decodeWord (0x8#4 ++ x ++ y ++ 0x0#4) = .ok (.op8xy0 x y) ∧
    decodeWord (0x8#4 ++ x ++ y ++ 0x1#4) = .ok (.op8xy1 x y) ∧
    decodeWord (0x8#4 ++ x ++ y ++ 0x2#4) = .ok (.op8xy2 x y) ∧
    decodeWord (0x8#4 ++ x ++ y ++ 0x3#4) = .ok (.op8xy3 x y)) ∧
  ∀ (x y : Nibble) (s : State),
    (∃ t, exec (.op8xy0 x y) s = .next t ∧ t.getV x = s.getV y ∧ s.OnlyRegister x t) ∧
    (∃ t, exec (.op8xy1 x y) s = .next t ∧ s.OnlyRegister x t ∧
      ∀ b, (t.getV x).getLsbD b = ((s.getV x).getLsbD b || (s.getV y).getLsbD b)) ∧
    (∃ t, exec (.op8xy2 x y) s = .next t ∧ s.OnlyRegister x t ∧
      ∀ b, (t.getV x).getLsbD b = ((s.getV x).getLsbD b && (s.getV y).getLsbD b)) ∧
    (∃ t, exec (.op8xy3 x y) s = .next t ∧ s.OnlyRegister x t ∧
      ∀ b, (t.getV x).getLsbD b = ((s.getV x).getLsbD b ^^ (s.getV y).getLsbD b))

/-- R166: `8xy4` adds modulo 256; VF is 1 exactly when the sum exceeds 255, written last (with x = 15 the sum is lost). -/
def Obligations.AddRegisters : Prop :=
  (∀ x y : Nibble, decodeWord (0x8#4 ++ x ++ y ++ 0x4#4) = .ok (.op8xy4 x y)) ∧
  ∀ (x y : Nibble) (s : State), ∃ t, exec (.op8xy4 x y) s = .next t ∧
    (t.getV 15).toNat = (if 255 < (s.getV x).toNat + (s.getV y).toNat then 1 else 0) ∧
    (x ≠ 15 → (t.getV x).toNat = ((s.getV x).toNat + (s.getV y).toNat) % 256) ∧
    s.OnlyRegisterAndFlag x t

/-- R167 and R169: `8xy5` and `8xy7` subtract modulo 256; VF is 1 exactly when there is no borrow, equality included,
written last. -/
def Obligations.SubtractRegisters : Prop :=
  (∀ x y : Nibble, decodeWord (0x8#4 ++ x ++ y ++ 0x5#4) = .ok (.op8xy5 x y) ∧
    decodeWord (0x8#4 ++ x ++ y ++ 0x7#4) = .ok (.op8xy7 x y)) ∧
  ∀ (x y : Nibble) (s : State),
    (∃ t, exec (.op8xy5 x y) s = .next t ∧
      (t.getV 15).toNat = (if (s.getV y).toNat ≤ (s.getV x).toNat then 1 else 0) ∧
      (x ≠ 15 → (t.getV x).toNat = ((s.getV x).toNat + 256 - (s.getV y).toNat) % 256) ∧
      s.OnlyRegisterAndFlag x t) ∧
    (∃ t, exec (.op8xy7 x y) s = .next t ∧
      (t.getV 15).toNat = (if (s.getV x).toNat ≤ (s.getV y).toNat then 1 else 0) ∧
      (x ≠ 15 → (t.getV x).toNat = ((s.getV y).toNat + 256 - (s.getV x).toNat) % 256) ∧
      s.OnlyRegisterAndFlag x t)

/-- R168 and R170: `8xy6` and `8xyE` shift Vx in place by one with zero fill, whatever y is; VF is the bit shifted out,
written last. -/
def Obligations.ShiftRegister : Prop :=
  (∀ x y : Nibble, decodeWord (0x8#4 ++ x ++ y ++ 0x6#4) = .ok (.op8xy6 x y) ∧
    decodeWord (0x8#4 ++ x ++ y ++ 0xE#4) = .ok (.op8xyE x y)) ∧
  ∀ (x y : Nibble) (s : State),
    (∃ t, exec (.op8xy6 x y) s = .next t ∧ (t.getV 15).toNat = (s.getV x).toNat % 2 ∧
      (x ≠ 15 → (t.getV x).toNat = (s.getV x).toNat / 2) ∧ s.OnlyRegisterAndFlag x t) ∧
    (∃ t, exec (.op8xyE x y) s = .next t ∧ (t.getV 15).toNat = (s.getV x).toNat / 128 ∧
      (x ≠ 15 → (t.getV x).toNat = 2 * (s.getV x).toNat % 256) ∧ s.OnlyRegisterAndFlag x t)

/-! ### Control flow -/

/-- R141: `1nnn` sets PC to nnn, for every nnn, odd and low ones too, and changes nothing else; 0xFFF is accepted and the
next fetch faults. -/
def Obligations.Jump : Prop :=
  (∀ nnn : Addr12, decodeWord (0x1#4 ++ nnn) = .ok (.op1nnn nnn)) ∧
  (∀ (nnn : Addr12) (s : State), ∃ t, exec (.op1nnn nnn) s = .next t ∧ t.pc.toNat = nnn.toNat ∧ s.ChangesOnly [.pc] t) ∧
  ∀ s : State, s.mode = .run → ∃ t u, exec (.op1nnn 0xFFF) s = .next t ∧ step t = .next u ∧
    u.mode = .faulted ∧ u.fault.cause = .memoryOutOfRange

/-- `Bnnn` sets PC to nnn + V0, never reduced to 12 bits (41_control_flow.md section 2; the spec's own decision D27). -/
def Obligations.JumpWithOffset : Prop :=
  (∀ nnn : Addr12, decodeWord (0xB#4 ++ nnn) = .ok (.opBnnn nnn)) ∧
  ∀ (nnn : Addr12) (s : State), ∃ t, exec (.opBnnn nnn) s = .next t ∧
    t.pc.toNat = nnn.toNat + (s.getV 0).toNat ∧ s.ChangesOnly [.pc] t

/-- `2nnn` pushes the advanced PC and jumps when fewer than 16 entries are in use; with 16 it enters `StackOverflow` and
does nothing else (41_control_flow.md section 2; pointer form D11, record D3, D4). -/
def Obligations.Call : Prop :=
  (∀ nnn : Addr12, decodeWord (0x2#4 ++ nnn) = .ok (.op2nnn nnn)) ∧
  (∀ (nnn : Addr12) (s : State) (h : s.sp.val < 16), ∃ t, exec (.op2nnn nnn) s = .next t ∧
    t.pc.toNat = nnn.toNat ∧ t.sp.val = s.sp.val + 1 ∧ t.stack[s.sp.val] = s.pc ∧
    (∀ k, (hk : k < 16) → k ≠ s.sp.val → t.stack[k] = s.stack[k]) ∧ s.ChangesOnly [.pc, .stack, .sp] t) ∧
  ∀ (nnn : Addr12) (s : State), s.sp.val = 16 → ∃ t, exec (.op2nnn nnn) s = .next t ∧
    s.EntersFault .stackOverflow (0x2#4 ++ nnn) (s.pc - 2) 0 t

/-- `00EE` pops the newest entry into PC when there is one; on an empty stack it enters `StackUnderflow` and does nothing
else (41_control_flow.md section 2; pointer form D11, record D3, D4). -/
def Obligations.Return : Prop :=
  decodeWord 0x00EE = .ok .op00EE ∧
  (∀ (s : State) (h : 0 < s.sp.val), ∃ t, exec .op00EE s = .next t ∧
    t.sp.val + 1 = s.sp.val ∧ t.pc = s.stack[s.sp.val - 1] ∧ s.ChangesOnly [.pc, .sp] t) ∧
  ∀ s : State, s.sp.val = 0 → ∃ t, exec .op00EE s = .next t ∧ s.EntersFault .stackUnderflow 0x00EE (s.pc - 2) 0 t

/-- `2nnn` then `00EE` comes back to the instruction after the call, for any nnn (95_test_vectors.md A5). -/
def Obligations.ReturnUndoesCall : Prop :=
  ∀ (nnn : Addr12) (s : State), s.sp.val < 16 → ∃ t u, exec (.op2nnn nnn) s = .next t ∧ exec .op00EE t = .next u ∧
    u.pc = s.pc ∧ u.sp = s.sp ∧ s.ChangesOnly [.stack] u

/-- R143 and R144: `3xkk` skips exactly when Vx is kk, `4xkk` exactly when it is not; a taken skip adds 2 to PC. -/
def Obligations.SkipOnImmediate : Prop :=
  (∀ (x : Nibble) (kk : Byte), decodeWord (0x3#4 ++ x ++ kk) = .ok (.op3xkk x kk) ∧
    decodeWord (0x4#4 ++ x ++ kk) = .ok (.op4xkk x kk)) ∧
  ∀ (x : Nibble) (kk : Byte) (s : State),
    (∃ t, exec (.op3xkk x kk) s = .next t ∧ s.ChangesOnly [.pc] t ∧
      t.pc = if (s.getV x).toNat = kk.toNat then s.pc + 2 else s.pc) ∧
    (∃ t, exec (.op4xkk x kk) s = .next t ∧ s.ChangesOnly [.pc] t ∧
      t.pc = if (s.getV x).toNat = kk.toNat then s.pc else s.pc + 2)

/-- R145 and R146: `5xy0` skips exactly when Vx is Vy, `9xy0` exactly when it is not; `5xyN` and `9xyN` with N not 0 are
unknown. -/
def Obligations.SkipOnRegisters : Prop :=
  (∀ x y n : Nibble,
    decodeWord (0x5#4 ++ x ++ y ++ n) =
      (if n = 0 then .ok (.op5xy0 x y) else .error (.unknownOpcode (0x5#4 ++ x ++ y ++ n))) ∧
    decodeWord (0x9#4 ++ x ++ y ++ n) =
      (if n = 0 then .ok (.op9xy0 x y) else .error (.unknownOpcode (0x9#4 ++ x ++ y ++ n)))) ∧
  ∀ (x y : Nibble) (s : State),
    (∃ t, exec (.op5xy0 x y) s = .next t ∧ s.ChangesOnly [.pc] t ∧
      t.pc = if (s.getV x).toNat = (s.getV y).toNat then s.pc + 2 else s.pc) ∧
    (∃ t, exec (.op9xy0 x y) s = .next t ∧ s.ChangesOnly [.pc] t ∧
      t.pc = if (s.getV x).toNat = (s.getV y).toNat then s.pc else s.pc + 2)

/-! ### Index register and memory -/

/-- R180 and R181: `Annn` loads I; `Fx1E` adds Vx to I modulo 65536 and writes no flag. -/
def Obligations.LoadAndAddIndex : Prop :=
  (∀ nnn : Addr12, decodeWord (0xA#4 ++ nnn) = .ok (.opAnnn nnn)) ∧
  (∀ x : Nibble, decodeWord (0xF#4 ++ x ++ 0x1E#8) = .ok (.opFx1E x)) ∧
  (∀ (nnn : Addr12) (s : State), ∃ t, exec (.opAnnn nnn) s = .next t ∧
    t.index.toNat = nnn.toNat ∧ s.ChangesOnly [.index] t) ∧
  ∀ (x : Nibble) (s : State), ∃ t, exec (.opFx1E x) s = .next t ∧
    t.index.toNat = (s.index.toNat + (s.getV x).toNat) % 65536 ∧ s.ChangesOnly [.index] t

/-- `Fx29` sets I to 5 times Vx, all eight bits of it (43_index_memory.md section 2; above 15 the spec's own decision
D14, log entry 13). -/
def Obligations.PointAtGlyph : Prop :=
  (∀ x : Nibble, decodeWord (0xF#4 ++ x ++ 0x29#8) = .ok (.opFx29 x)) ∧
  ∀ (x : Nibble) (s : State), ∃ t, exec (.opFx29 x) s = .next t ∧
    t.index.toNat = 5 * (s.getV x).toNat ∧ s.ChangesOnly [.index] t

/-- `Fx33` stores the three decimal digits of Vx at I, I+1, I+2 when all three are writable; otherwise it enters the fault
of the lowest bad address and stores nothing (43_index_memory.md section 2; the spec's own decisions D6, D7, D3, D4). -/
def Obligations.StoreDecimal : Prop :=
  (∀ x : Nibble, decodeWord (0xF#4 ++ x ++ 0x33#8) = .ok (.opFx33 x)) ∧
  (∀ (x : Nibble) (s : State), 0x050 ≤ s.effAddr 0 → s.effAddr 2 ≤ 4095 → ∃ t, exec (.opFx33 x) s = .next t ∧
    (t.readByte (s.effAddr 0)).toNat = (s.getV x).toNat / 100 ∧
    (t.readByte (s.effAddr 1)).toNat = (s.getV x).toNat / 10 % 10 ∧
    (t.readByte (s.effAddr 2)).toNat = (s.getV x).toNat % 10 ∧
    (∀ a, a < s.effAddr 0 ∨ s.effAddr 2 < a → t.readByte a = s.readByte a) ∧ s.ChangesOnly [.mem] t) ∧
  (∀ (x : Nibble) (s : State), s.effAddr 0 ≤ 0x04F → ∃ t, exec (.opFx33 x) s = .next t ∧
    s.EntersFault .fontWriteFault (0xF#4 ++ x ++ 0x33#8) (s.pc - 2) (s.effAddr 0) t) ∧
  ∀ (x : Nibble) (s : State), 4095 < s.effAddr 2 → ∃ t, exec (.opFx33 x) s = .next t ∧
    s.EntersFault .memoryOutOfRange (0xF#4 ++ x ++ 0x33#8) (s.pc - 2) (max (s.effAddr 0) 4096) t

/-- `Fx55` stores V0..Vx at I..I+x when all are writable, I unchanged; otherwise it enters the fault of the lowest bad
address and stores nothing (43_index_memory.md section 2; the spec's own decisions D6, D7, D3, D4). -/
def Obligations.StoreRegisters : Prop :=
  (∀ x : Nibble, decodeWord (0xF#4 ++ x ++ 0x55#8) = .ok (.opFx55 x)) ∧
  (∀ (x : Nibble) (s : State), 0x050 ≤ s.effAddr 0 → s.effAddr x.toNat ≤ 4095 → ∃ t, exec (.opFx55 x) s = .next t ∧
    (∀ j : Nibble, j.toNat ≤ x.toNat → t.readByte (s.effAddr j.toNat) = s.getV j) ∧
    (∀ a, a < s.effAddr 0 ∨ s.effAddr x.toNat < a → t.readByte a = s.readByte a) ∧ s.ChangesOnly [.mem] t) ∧
  (∀ (x : Nibble) (s : State), s.effAddr 0 ≤ 0x04F → ∃ t, exec (.opFx55 x) s = .next t ∧
    s.EntersFault .fontWriteFault (0xF#4 ++ x ++ 0x55#8) (s.pc - 2) (s.effAddr 0) t) ∧
  ∀ (x : Nibble) (s : State), 4095 < s.effAddr x.toNat → ∃ t, exec (.opFx55 x) s = .next t ∧
    s.EntersFault .memoryOutOfRange (0xF#4 ++ x ++ 0x55#8) (s.pc - 2) (max (s.effAddr 0) 4096) t

/-- `Fx65` loads V0..Vx from I..I+x when all are readable, the font included, I and the registers above Vx unchanged;
otherwise it enters `MemoryOutOfRange` and loads nothing (43_index_memory.md section 2; D7, D3, D4). -/
def Obligations.LoadRegisters : Prop :=
  (∀ x : Nibble, decodeWord (0xF#4 ++ x ++ 0x65#8) = .ok (.opFx65 x)) ∧
  (∀ (x : Nibble) (s : State), s.effAddr x.toNat ≤ 4095 → ∃ t, exec (.opFx65 x) s = .next t ∧
    (∀ j : Nibble, t.getV j = if j.toNat ≤ x.toNat then s.readByte (s.effAddr j.toNat) else s.getV j) ∧
    s.ChangesOnly [.v] t) ∧
  ∀ (x : Nibble) (s : State), 4095 < s.effAddr x.toNat → ∃ t, exec (.opFx65 x) s = .next t ∧
    s.EntersFault .memoryOutOfRange (0xF#4 ++ x ++ 0x65#8) (s.pc - 2) (max (s.effAddr 0) 4096) t

/-- Self-modifying code: an instruction stored by `Fx55` at the advanced PC is the one the next step runs
(20_memory.md section 8; 70_reset_and_hazards.md section 3). -/
def Obligations.StoredInstructionRunsNext : Prop :=
  ∀ (s : State) (x : Nibble) (i : Instr), s.mode = .run → s.index = s.pc → 1 ≤ x.toNat → 0x050 ≤ s.effAddr 0 →
    s.effAddr x.toNat ≤ 4095 → decodeWord (wordOfBytes (s.getV 0) (s.getV 1)) = .ok i →
    ∃ t, exec (.opFx55 x) s = .next t ∧ step t = exec i (t.setPc (t.pc + 2))

/-- No step changes a font byte, in any state (20_memory.md sections 1 and 2; the spec's own decision D6). -/
def Obligations.FontIsNeverWritten : Prop :=
  ∀ s t : State, step s = .next t → ∀ a, a ≤ 0x04F → t.readByte a = s.readByte a

/-! ### Display -/

/-- R200: `00E0` clears all pixels and sets the dirty flag. -/
def Obligations.ClearDisplay : Prop :=
  decodeWord 0x00E0 = .ok .op00E0 ∧
  ∀ s : State, ∃ t, exec .op00E0 s = .next t ∧ (∀ row col, row < 32 → col < 64 → t.pixel row col = false) ∧
    t.dirty = true ∧ s.ChangesOnly [.fb, .dirty] t

/-- `Dxyn`, pixel by pixel: each visible pixel is XORed with the sprite's pixel there, clipped ones are dropped; VF is 1
exactly when a lit pixel met a lit sprite pixel, else 0; dirty is set. If any of the n addresses is out of range it
enters the fault and draws nothing (44_display.md sections 2 and 3; orientation D19, log entry 2; D20, D18, D3, D4). -/
def Obligations.DrawSprite : Prop :=
  (∀ x y n : Nibble, decodeWord (0xD#4 ++ x ++ y ++ n) = .ok (.opDxyn x y n)) ∧
  (∀ (x y n : Nibble) (s : State), n.toNat = 0 ∨ s.effAddr n.toNat ≤ 4096 → ∃ t, exec (.opDxyn x y n) s = .next t ∧
    (∀ row col, row < 32 → col < 64 → t.pixel row col =
      (s.pixel row col ^^ s.spritePixel (s.effAddr 0) n.toNat ((s.getV y).toNat % 32) ((s.getV x).toNat % 64) row col)) ∧
    (t.getV 15 = 1 ↔ ∃ row col, row < 32 ∧ col < 64 ∧ s.pixel row col = true ∧
      s.spritePixel (s.effAddr 0) n.toNat ((s.getV y).toNat % 32) ((s.getV x).toNat % 64) row col = true) ∧
    (t.getV 15 = 0 ∨ t.getV 15 = 1) ∧ t.dirty = true ∧
    (∀ j, j ≠ 15 → t.getV j = s.getV j) ∧ s.ChangesOnly [.v, .fb, .dirty] t) ∧
  ∀ (x y n : Nibble) (s : State), n.toNat ≠ 0 → 4096 < s.effAddr n.toNat → ∃ t, exec (.opDxyn x y n) s = .next t ∧
    s.EntersFault .memoryOutOfRange (0xD#4 ++ x ++ y ++ n) (s.pc - 2) (max (s.effAddr 0) 4096) t

/-- Drawing the same sprite twice at the same position restores every pixel; on a clear screen the first draw leaves
VF = 0 and the second sets VF = 1 exactly when the first lit a pixel (95_test_vectors.md A7; coordinates not in VF). -/
def Obligations.DrawingTwiceRestores : Prop :=
  ∀ (x y n : Nibble) (s : State), x ≠ 15 → y ≠ 15 → n.toNat = 0 ∨ s.effAddr n.toNat ≤ 4096 →
    ∃ t u, exec (.opDxyn x y n) s = .next t ∧ exec (.opDxyn x y n) t = .next u ∧ u.fb = s.fb ∧
      ((∀ row col, s.pixel row col = false) →
        t.getV 15 = 0 ∧ (u.getV 15 = 1 ↔ ∃ row col, row < 32 ∧ col < 64 ∧ t.pixel row col = true))

/-! ### Keypad -/

/-- `Ex9E` skips exactly when the key of the low nibble of Vx is down in the latch, `ExA1` exactly when it is not
(45_keypad.md sections 1 and 2; above 15 the spec's own decision D13, log entry 12). -/
def Obligations.SkipOnKey : Prop :=
  (∀ x : Nibble, decodeWord (0xE#4 ++ x ++ 0x9E#8) = .ok (.opEx9E x) ∧
    decodeWord (0xE#4 ++ x ++ 0xA1#8) = .ok (.opExA1 x)) ∧
  ∀ (x : Nibble) (s : State),
    (∃ t, exec (.opEx9E x) s = .next t ∧ s.ChangesOnly [.pc] t ∧
      t.pc = if s.key[(s.getV x).toNat % 16] = true then s.pc + 2 else s.pc) ∧
    (∃ t, exec (.opExA1 x) s = .next t ∧ s.ChangesOnly [.pc] t ∧
      t.pc = if s.key[(s.getV x).toNat % 16] = true then s.pc else s.pc + 2)

/-- `Fx0A` only begins the wait; `key_press` then writes the key's number to Vx and ends it, and changes nothing else
(45_keypad.md sections 2 and 3; the latch WAITX is the spec's own decision D12, log entry 17). -/
def Obligations.KeyWaitCompletesByKeyPress : Prop :=
  (∀ x : Nibble, decodeWord (0xF#4 ++ x ++ 0x0A#8) = .ok (.opFx0A x)) ∧
  ∀ (x k : Nibble) (s : State), ∃ t u, exec (.opFx0A x) s = .next t ∧ t.stepResult = .waiting ∧
    t.mode = .waitkey ∧ t.waitx = x ∧ s.ChangesOnly [.mode, .waitx] t ∧
    operate (.keyPress k) t = .next (u, .done) ∧ u.mode = .run ∧ (u.getV x).toNat = k.toNat ∧
    (∀ j, j ≠ x → u.getV j = t.getV j) ∧ t.ChangesOnly [.v, .mode] u

/-- A key press outside a wait is dropped (45_keypad.md section 3; the spec's own decision D12, log entry 17). -/
def Obligations.KeyPressOutsideAWaitIsDropped : Prop :=
  ∀ (k : Nibble) (s : State), s.mode ≠ .waitkey → operate (.keyPress k) s = .next (s, .done)

/-- R226: `set_keys` overwrites all sixteen keys and nothing else, in any mode. -/
def Obligations.SetKeysOverwritesTheLatch : Prop :=
  ∀ (keys : Vector Bool 16) (s : State), ∃ t, operate (.setKeys keys) s = .next (t, .done) ∧
    (∀ k, (h : k < 16) → t.key[k] = keys[k]) ∧ s.ChangesOnly [.key] t

/-! ### Timers and random -/

/-- R240, R241 and R242: `Fx07` reads DT, `Fx15` writes DT, `Fx18` writes ST; nothing else changes. -/
def Obligations.TimerMoves : Prop :=
  (∀ x : Nibble, decodeWord (0xF#4 ++ x ++ 0x07#8) = .ok (.opFx07 x) ∧
    decodeWord (0xF#4 ++ x ++ 0x15#8) = .ok (.opFx15 x) ∧ decodeWord (0xF#4 ++ x ++ 0x18#8) = .ok (.opFx18 x)) ∧
  ∀ (x : Nibble) (s : State),
    (∃ t, exec (.opFx07 x) s = .next t ∧ t.getV x = s.dt ∧ s.OnlyRegister x t) ∧
    (∃ t, exec (.opFx15 x) s = .next t ∧ t.dt = s.getV x ∧ s.ChangesOnly [.dt] t) ∧
    (∃ t, exec (.opFx18 x) s = .next t ∧ t.st = s.getV x ∧ s.ChangesOnly [.st] t)

/-- `Cxkk` writes a random byte under the mask: whatever byte is drawn, only bits of kk can be set, and any byte may be
the one drawn (46_timers_random.md section 1; the free value and its counter `draws` are the model's, log entry 3). -/
def Obligations.RandomUnderMask : Prop :=
  (∀ (x : Nibble) (kk : Byte), decodeWord (0xC#4 ++ x ++ kk) = .ok (.opCxkk x kk)) ∧
  (∀ (x : Nibble) (kk : Byte) (s : State), ∃ t, exec (.opCxkk x kk) s = .next t ∧
    (∃ r : Byte, t.getV x = r &&& kk) ∧ t.getV x &&& ~~~kk = 0 ∧ t.draws = s.draws + 1 ∧
    (∀ j, j ≠ x → t.getV j = s.getV j) ∧ s.ChangesOnly [.v, .draws] t) ∧
  ∀ (r : Byte) (x : Nibble) (kk : Byte) (s : State),
    (randomMasked r x kk s).getV x = r &&& kk ∧ s.OnlyRegister x (randomMasked r x kk s)

/-- A tick takes one from each nonzero timer, independently, and answers `sound_stop` exactly when ST was 1
(46_timers_random.md section 2). It does so in every mode: that it also does in `WAITKEY` and `FAULTED` is the spec's own
decision D17 (log entry 18); that the event is this answer is D16 (log entry 24). -/
def Obligations.TickCountsDown : Prop :=
  ∀ s : State, ∃ t stop, operate .tickTimers s = .next (t, .ticked stop) ∧
    t.dt.toNat = (if s.dt.toNat ≠ 0 then s.dt.toNat - 1 else 0) ∧
    t.st.toNat = (if s.st.toNat ≠ 0 then s.st.toNat - 1 else 0) ∧
    (stop = true ↔ s.st.toNat = 1) ∧ s.ChangesOnly [.dt, .st] t

/-! ### Faults -/

/-- Faults are precise: the state at a fault is the state before the step, plus the PC advance (none for a fetch fault),
plus `MODE` and `FAULT`, whose record names the word and its address (60_exceptions.md section 2; D2, D7, D8). -/
def Obligations.FaultsArePrecise : Prop :=
  ∀ s t : State, s.Safe → step s = .next t → ¬ t.Safe →
    s.ChangesOnly [.pc, .mode, .fault] t ∧ t.fault.pc = s.pc ∧ t.stepResult = .fault t.fault.cause ∧
    (s.pc.toNat ≤ 0xFFE → t.pc.toNat = s.pc.toNat + 2 ∧
      t.fault.opcode = wordOfBytes (s.readByte s.pc.toNat) (s.readByte (s.pc.toNat + 1))) ∧
    (0xFFF ≤ s.pc.toNat → t.pc = s.pc ∧ t.fault.opcode = 0)

/-- Which instructions fault, and on exactly which states: the table of 60_exceptions.md section 1; no other instruction
faults (the font's store fault and the check of all n sprite bytes are the spec's own decisions D6, D20). -/
def Obligations.OnlySixInstructionsFault : Prop :=
  ∀ (i : Instr) (s t : State), s.Safe → exec i s = .next t →
    (t.Safe ↔ match i with
      | .op00EE => s.sp.val ≠ 0
      | .op2nnn _ => s.sp.val ≠ 16
      | .opFx33 _ => 0x050 ≤ s.index.toNat ∧ s.index.toNat + 2 ≤ 4095
      | .opFx55 x => 0x050 ≤ s.index.toNat ∧ s.index.toNat + x.toNat ≤ 4095
      | .opFx65 x => s.index.toNat + x.toNat ≤ 4095
      | .opDxyn _ _ n => n.toNat = 0 ∨ s.index.toNat + n.toNat ≤ 4096
      | _ => True)

/-- A latched fault is sticky: no step changes the state, no operation but `reset` leaves `FAULTED` or changes the record
(60_exceptions.md section 4; 90_conflicts.md C4; D2). -/
def Obligations.OnlyResetLeavesFaulted : Prop :=
  ∀ s : State, ¬ s.Safe →
    step s = .next s ∧
    (∀ op t r, op ≠ .reset → operate op s = .next (t, r) → ¬ t.Safe ∧ t.fault = s.fault ∧ t.pc = s.pc ∧ t.v = s.v) ∧
    ∃ t, operate .reset s = .next (t, .done) ∧ t.Safe

/-! ### Host operations -/

/-- `reset` from any state gives every element its reset value, the program erased, the font in place; the draw counter,
the model's own, is kept (70_reset_and_hazards.md section 1; D18, D22, log entries 3 and 4). -/
def Obligations.ResetInstallsEveryValue : Prop :=
  ∀ s : State, ∃ t, operate .reset s = .next (t, .done) ∧
    (∀ j, t.getV j = 0) ∧ t.index = 0 ∧ t.pc = 0x0200 ∧ (∀ k, (h : k < 16) → t.stack[k] = 0) ∧ t.sp.val = 0 ∧
    t.dt = 0 ∧ t.st = 0 ∧ (∀ k, (h : k < 16) → t.key[k] = false) ∧
    (∀ row col, row < 32 → col < 64 → t.pixel row col = false) ∧ t.dirty = false ∧
    (∀ a, t.readByte a = if a < 0x050 then fontByte a else 0) ∧ t.mode = .run ∧ t.waitx = 0 ∧
    t.fault = FaultRecord.clear ∧ t.draws = s.draws

/-- `load_program` copies up to 3584 bytes to 0x200 on, verbatim, and changes nothing else; a longer program is refused
and nothing is written (70_reset_and_hazards.md section 2; D23, log entry 25). -/
def Obligations.LoadProgramCopiesOrRefuses : Prop :=
  (∀ (bytes : List Byte) (s : State), bytes.length ≤ 3584 → ∃ t, operate (.loadProgram bytes) s = .next (t, .loaded) ∧
    (∀ k, (h : k < bytes.length) → t.readByte (0x200 + k) = bytes[k]) ∧
    (∀ a, a < 0x200 ∨ 0x200 + bytes.length ≤ a → t.readByte a = s.readByte a) ∧ s.ChangesOnly [.mem] t) ∧
  ∀ (bytes : List Byte) (s : State), 3584 < bytes.length → operate (.loadProgram bytes) s = .next (s, .romTooLarge)

/-- The read-out shows pixels, dirty flag, mode and fault record and changes nothing; `ack_draw` clears the dirty flag
and changes nothing else (44_display.md section 4; 60_exceptions.md section 4; D18). -/
def Obligations.ReadOutAndAcknowledge : Prop :=
  ∀ s : State, (∃ view, operate .readOut s = .next (s, .view view) ∧ view.fb = s.fb ∧ view.dirty = s.dirty ∧
      view.mode = s.mode ∧ view.fault = s.fault) ∧
    ∃ t, operate .ackDraw s = .next (t, .done) ∧ t.dirty = false ∧ s.ChangesOnly [.dirty] t

/-! ### Invariants -/

/-- The reset state is legal. -/
def Obligations.ResetIsLegal : Prop := State.reset.Inv

/-- INVARIANT: every step takes a legal state to a legal state: memory canonical, font intact, PC at most 0x10FE
(10_state.md section 5), return addresses advanced PCs (section 6), a fault latched exactly in `FAULTED` (section 11). -/
def Obligations.StepsKeepStatesLegal : Prop :=
  ∀ s t : State, s.Inv → step s = .next t → t.Inv

/-- INVARIANT over the host: every operation of 00_scope.md section 4, with any argument, keeps states legal, so every
state that any host can bring about by any interleaving is legal. -/
def Obligations.EveryHostScheduleKeepsStatesLegal : Prop :=
  (∀ (op : Operation) (s t : State) (r : Reply), s.Inv → operate op s = .next (t, r) → t.Inv) ∧
  ∀ s : State, Reachable s → s.Inv

/-- Memory in canonical form is determined by what it reads: equal memories are equal data (20_memory.md section 5; 10_state.md section 10). -/
def Obligations.CanonicalMemoriesAreEqual : Prop :=
  ∀ m m' : Memory, Memory.wf m = true → Memory.wf m' = true → (∀ a, Memory.get m a = Memory.get m' a) → m = m'
end

