-- ==== Sys2Proof/Laws/Decode.lean ====
section
/-! SUPPORT. Laws of fields, byte order and words put together from fields. (The widths `4 + 4 + 4 + 4` and 16 are the
same; a plain `simp` folds the sum and then no longer sees the append, so the bit lemmas are applied with `simp only`.) -/

namespace Sys2Proof

/-! ### Fields of a word put together from its parts -/

@[simp] theorem fieldOp_nibbles (op x y n : Nibble) : fieldOp (op ++ x ++ y ++ n) = op := by
  apply BitVec.eq_of_getLsbD_eq
  intro i hi
  simp only [fieldOp, BitVec.getLsbD_extractLsb', BitVec.getLsbD_append]
  interval_cases i <;> simp

@[simp] theorem fieldX_nibbles (op x y n : Nibble) : fieldX (op ++ x ++ y ++ n) = x := by
  apply BitVec.eq_of_getLsbD_eq
  intro i hi
  simp only [fieldX, BitVec.getLsbD_extractLsb', BitVec.getLsbD_append]
  interval_cases i <;> simp

@[simp] theorem fieldY_nibbles (op x y n : Nibble) : fieldY (op ++ x ++ y ++ n) = y := by
  apply BitVec.eq_of_getLsbD_eq
  intro i hi
  simp only [fieldY, BitVec.getLsbD_extractLsb', BitVec.getLsbD_append]
  interval_cases i <;> simp

@[simp] theorem fieldN_nibbles (op x y n : Nibble) : fieldN (op ++ x ++ y ++ n) = n := by
  apply BitVec.eq_of_getLsbD_eq
  intro i hi
  simp only [fieldN, BitVec.getLsbD_extractLsb', BitVec.getLsbD_append]
  interval_cases i <;> simp

@[simp] theorem fieldOp_xkk (op x : Nibble) (kk : Byte) : fieldOp (op ++ x ++ kk) = op := by
  apply BitVec.eq_of_getLsbD_eq
  intro i hi
  simp only [fieldOp, BitVec.getLsbD_extractLsb', BitVec.getLsbD_append]
  interval_cases i <;> simp

@[simp] theorem fieldX_xkk (op x : Nibble) (kk : Byte) : fieldX (op ++ x ++ kk) = x := by
  apply BitVec.eq_of_getLsbD_eq
  intro i hi
  simp only [fieldX, BitVec.getLsbD_extractLsb', BitVec.getLsbD_append]
  interval_cases i <;> simp

@[simp] theorem fieldKK_xkk (op x : Nibble) (kk : Byte) : fieldKK (op ++ x ++ kk) = kk := by
  apply BitVec.eq_of_getLsbD_eq
  intro i hi
  simp only [fieldKK, BitVec.getLsbD_extractLsb', BitVec.getLsbD_append]
  interval_cases i <;> simp

@[simp] theorem fieldOp_nnn (op : Nibble) (nnn : Addr12) : fieldOp (op ++ nnn) = op := by
  apply BitVec.eq_of_getLsbD_eq
  intro i hi
  simp only [fieldOp, BitVec.getLsbD_extractLsb', BitVec.getLsbD_append]
  interval_cases i <;> simp

@[simp] theorem fieldNNN_nnn (op : Nibble) (nnn : Addr12) : fieldNNN (op ++ nnn) = nnn := by
  apply BitVec.eq_of_getLsbD_eq
  intro i hi
  simp only [fieldNNN, BitVec.getLsbD_extractLsb', BitVec.getLsbD_append]
  interval_cases i <;> simp

/-! ### A word is its fields -/

theorem nibbles_eta (w : Word) : fieldOp w ++ fieldX w ++ fieldY w ++ fieldN w = w := by
  apply BitVec.eq_of_getLsbD_eq
  intro i hi
  simp only [fieldOp, fieldX, fieldY, fieldN, BitVec.getLsbD_extractLsb', BitVec.getLsbD_append]
  interval_cases i <;> simp

theorem xkk_eta (w : Word) : fieldOp w ++ fieldX w ++ fieldKK w = w := by
  apply BitVec.eq_of_getLsbD_eq
  intro i hi
  simp only [fieldOp, fieldX, fieldKK, BitVec.getLsbD_extractLsb', BitVec.getLsbD_append]
  interval_cases i <;> simp

theorem nnn_eta (w : Word) : fieldOp w ++ fieldNNN w = w := by
  apply BitVec.eq_of_getLsbD_eq
  intro i hi
  simp only [fieldOp, fieldNNN, BitVec.getLsbD_extractLsb', BitVec.getLsbD_append]
  interval_cases i <;> simp

/-! ### Byte order (R65) -/

@[simp] theorem wordOfBytes_bytes (w : Word) : wordOfBytes (highByte w) (lowByte w) = w := by
  apply BitVec.eq_of_getLsbD_eq
  intro i hi
  simp only [wordOfBytes, highByte, lowByte, BitVec.getLsbD_extractLsb', BitVec.getLsbD_append]
  interval_cases i <;> simp

@[simp] theorem highByte_wordOfBytes (hi lo : Byte) : highByte (wordOfBytes hi lo) = hi := by
  apply BitVec.eq_of_getLsbD_eq
  intro i h
  simp only [wordOfBytes, highByte, BitVec.getLsbD_extractLsb', BitVec.getLsbD_append]
  interval_cases i <;> simp

@[simp] theorem lowByte_wordOfBytes (hi lo : Byte) : lowByte (wordOfBytes hi lo) = lo := by
  apply BitVec.eq_of_getLsbD_eq
  intro i h
  simp only [wordOfBytes, lowByte, BitVec.getLsbD_extractLsb', BitVec.getLsbD_append]
  interval_cases i <;> simp

/-- The bytes of an instruction put back together are its word. -/
theorem wordOfBytes_encodeBytes (i : Instr) : wordOfBytes (highByte (encode i)) (lowByte (encode i)) = encode i :=
  wordOfBytes_bytes _

/-! ### A word under the masks of the opcode table (R96) -/

theorem mask_xy (op x y n : Nibble) : (op ++ x ++ y ++ n) &&& 0xF00F#16 = op ++ 0x0#4 ++ 0x0#4 ++ n := by
  rw [show (0xF00F#16 : Word) = 0xF#4 ++ 0x0#4 ++ 0x0#4 ++ 0xF#4 by decide]
  rw [BitVec.and_append, BitVec.and_append, BitVec.and_append]
  simp only [BitVec.and_zero, show (0xF#4 : Nibble) = BitVec.allOnes 4 by decide, BitVec.and_allOnes]

theorem mask_x (op x : Nibble) (kk : Byte) : (op ++ x ++ kk) &&& 0xF0FF#16 = op ++ 0x0#4 ++ kk := by
  rw [show (0xF0FF#16 : Word) = 0xF#4 ++ 0x0#4 ++ 0xFF#8 by decide]
  rw [BitVec.and_append, BitVec.and_append]
  simp only [BitVec.and_zero, show (0xF#4 : Nibble) = BitVec.allOnes 4 by decide,
    show (0xFF#8 : Byte) = BitVec.allOnes 8 by decide, BitVec.and_allOnes]

theorem mask_op_nibbles (op x y n : Nibble) : (op ++ x ++ y ++ n) &&& 0xF000#16 = op ++ 0x000#12 := by
  rw [show (0xF000#16 : Word) = 0xF#4 ++ 0x0#4 ++ 0x0#4 ++ 0x0#4 by decide]
  rw [BitVec.and_append, BitVec.and_append, BitVec.and_append]
  simp only [BitVec.and_zero, show (0xF#4 : Nibble) = BitVec.allOnes 4 by decide, BitVec.and_allOnes]
  revert op
  decide

theorem mask_op_xkk (op x : Nibble) (kk : Byte) : (op ++ x ++ kk) &&& 0xF000#16 = op ++ 0x000#12 := by
  rw [show (0xF000#16 : Word) = 0xF#4 ++ 0x0#4 ++ 0x00#8 by decide]
  rw [BitVec.and_append, BitVec.and_append]
  simp only [BitVec.and_zero, show (0xF#4 : Nibble) = BitVec.allOnes 4 by decide, BitVec.and_allOnes]
  revert op
  decide

theorem mask_op_nnn (op : Nibble) (nnn : Addr12) : (op ++ nnn) &&& 0xF000#16 = op ++ 0x000#12 := by
  rw [show (0xF000#16 : Word) = 0xF#4 ++ 0x000#12 by decide]
  rw [BitVec.and_append]
  simp only [BitVec.and_zero, show (0xF#4 : Nibble) = BitVec.allOnes 4 by decide, BitVec.and_allOnes]

/-! ### What a decoded word is (the decoder inverted once) -/

/-- One branch of a decoder's chain of tests. -/
theorem ite_ok {c : Prop} [Decidable c] {a b : Except DecodeError Instr} {i : Instr} (h : (if c then a else b) = .ok i) :
    (c ∧ a = .ok i) ∨ (¬ c ∧ b = .ok i) := by
  by_cases hc : c
  · exact .inl ⟨hc, by rwa [if_pos hc] at h⟩
  · exact .inr ⟨hc, by rwa [if_neg hc] at h⟩

/-- What the fields of a word are when it stands for an instruction. -/
def DecodesTo (w : Word) : Instr → Prop
  | .op00E0 => w = 0x00E0#16
  | .op00EE => w = 0x00EE#16
  | .op1nnn nnn => fieldOp w = 0x1#4 ∧ nnn = fieldNNN w
  | .op2nnn nnn => fieldOp w = 0x2#4 ∧ nnn = fieldNNN w
  | .op3xkk x kk => fieldOp w = 0x3#4 ∧ x = fieldX w ∧ kk = fieldKK w
  | .op4xkk x kk => fieldOp w = 0x4#4 ∧ x = fieldX w ∧ kk = fieldKK w
  | .op5xy0 x y => fieldOp w = 0x5#4 ∧ fieldN w = 0x0#4 ∧ x = fieldX w ∧ y = fieldY w
  | .op6xkk x kk => fieldOp w = 0x6#4 ∧ x = fieldX w ∧ kk = fieldKK w
  | .op7xkk x kk => fieldOp w = 0x7#4 ∧ x = fieldX w ∧ kk = fieldKK w
  | .op8xy0 x y => fieldOp w = 0x8#4 ∧ fieldN w = 0x0#4 ∧ x = fieldX w ∧ y = fieldY w
  | .op8xy1 x y => fieldOp w = 0x8#4 ∧ fieldN w = 0x1#4 ∧ x = fieldX w ∧ y = fieldY w
  | .op8xy2 x y => fieldOp w = 0x8#4 ∧ fieldN w = 0x2#4 ∧ x = fieldX w ∧ y = fieldY w
  | .op8xy3 x y => fieldOp w = 0x8#4 ∧ fieldN w = 0x3#4 ∧ x = fieldX w ∧ y = fieldY w
  | .op8xy4 x y => fieldOp w = 0x8#4 ∧ fieldN w = 0x4#4 ∧ x = fieldX w ∧ y = fieldY w
  | .op8xy5 x y => fieldOp w = 0x8#4 ∧ fieldN w = 0x5#4 ∧ x = fieldX w ∧ y = fieldY w
  | .op8xy6 x y => fieldOp w = 0x8#4 ∧ fieldN w = 0x6#4 ∧ x = fieldX w ∧ y = fieldY w
  | .op8xy7 x y => fieldOp w = 0x8#4 ∧ fieldN w = 0x7#4 ∧ x = fieldX w ∧ y = fieldY w
  | .op8xyE x y => fieldOp w = 0x8#4 ∧ fieldN w = 0xE#4 ∧ x = fieldX w ∧ y = fieldY w
  | .op9xy0 x y => fieldOp w = 0x9#4 ∧ fieldN w = 0x0#4 ∧ x = fieldX w ∧ y = fieldY w
  | .opAnnn nnn => fieldOp w = 0xA#4 ∧ nnn = fieldNNN w
  | .opBnnn nnn => fieldOp w = 0xB#4 ∧ nnn = fieldNNN w
  | .opCxkk x kk => fieldOp w = 0xC#4 ∧ x = fieldX w ∧ kk = fieldKK w
  | .opDxyn x y n => fieldOp w = 0xD#4 ∧ x = fieldX w ∧ y = fieldY w ∧ n = fieldN w
  | .opEx9E x => fieldOp w = 0xE#4 ∧ fieldKK w = 0x9E#8 ∧ x = fieldX w
  | .opExA1 x => fieldOp w = 0xE#4 ∧ fieldKK w = 0xA1#8 ∧ x = fieldX w
  | .opFx07 x => fieldOp w = 0xF#4 ∧ fieldKK w = 0x07#8 ∧ x = fieldX w
  | .opFx0A x => fieldOp w = 0xF#4 ∧ fieldKK w = 0x0A#8 ∧ x = fieldX w
  | .opFx15 x => fieldOp w = 0xF#4 ∧ fieldKK w = 0x15#8 ∧ x = fieldX w
  | .opFx18 x => fieldOp w = 0xF#4 ∧ fieldKK w = 0x18#8 ∧ x = fieldX w
  | .opFx1E x => fieldOp w = 0xF#4 ∧ fieldKK w = 0x1E#8 ∧ x = fieldX w
  | .opFx29 x => fieldOp w = 0xF#4 ∧ fieldKK w = 0x29#8 ∧ x = fieldX w
  | .opFx33 x => fieldOp w = 0xF#4 ∧ fieldKK w = 0x33#8 ∧ x = fieldX w
  | .opFx55 x => fieldOp w = 0xF#4 ∧ fieldKK w = 0x55#8 ∧ x = fieldX w
  | .opFx65 x => fieldOp w = 0xF#4 ∧ fieldKK w = 0x65#8 ∧ x = fieldX w

theorem decodeFamily0_ok {w : Word} {i : Instr} (h : decodeFamily0 w = .ok i) : DecodesTo w i := by
  unfold decodeFamily0 at h
  rcases ite_ok h with ⟨hw, h⟩ | ⟨_, h⟩
  · cases h; exact hw
  rcases ite_ok h with ⟨hw, h⟩ | ⟨_, h⟩
  · cases h; exact hw
  cases h

theorem decodeFamily8_ok {w : Word} {i : Instr} (ho : fieldOp w = 0x8#4) (h : decodeFamily8 w = .ok i) : DecodesTo w i := by
  unfold decodeFamily8 at h
  rcases ite_ok h with ⟨hn, h⟩ | ⟨_, h⟩
  · cases h; exact ⟨ho, hn, rfl, rfl⟩
  rcases ite_ok h with ⟨hn, h⟩ | ⟨_, h⟩
  · cases h; exact ⟨ho, hn, rfl, rfl⟩
  rcases ite_ok h with ⟨hn, h⟩ | ⟨_, h⟩
  · cases h; exact ⟨ho, hn, rfl, rfl⟩
  rcases ite_ok h with ⟨hn, h⟩ | ⟨_, h⟩
  · cases h; exact ⟨ho, hn, rfl, rfl⟩
  rcases ite_ok h with ⟨hn, h⟩ | ⟨_, h⟩
  · cases h; exact ⟨ho, hn, rfl, rfl⟩
  rcases ite_ok h with ⟨hn, h⟩ | ⟨_, h⟩
  · cases h; exact ⟨ho, hn, rfl, rfl⟩
  rcases ite_ok h with ⟨hn, h⟩ | ⟨_, h⟩
  · cases h; exact ⟨ho, hn, rfl, rfl⟩
  rcases ite_ok h with ⟨hn, h⟩ | ⟨_, h⟩
  · cases h; exact ⟨ho, hn, rfl, rfl⟩
  rcases ite_ok h with ⟨hn, h⟩ | ⟨_, h⟩
  · cases h; exact ⟨ho, hn, rfl, rfl⟩
  cases h

theorem decodeFamilyE_ok {w : Word} {i : Instr} (ho : fieldOp w = 0xE#4) (h : decodeFamilyE w = .ok i) : DecodesTo w i := by
  unfold decodeFamilyE at h
  rcases ite_ok h with ⟨hn, h⟩ | ⟨_, h⟩
  · cases h; exact ⟨ho, hn, rfl⟩
  rcases ite_ok h with ⟨hn, h⟩ | ⟨_, h⟩
  · cases h; exact ⟨ho, hn, rfl⟩
  cases h

theorem decodeFamilyF_ok {w : Word} {i : Instr} (ho : fieldOp w = 0xF#4) (h : decodeFamilyF w = .ok i) : DecodesTo w i := by
  unfold decodeFamilyF at h
  rcases ite_ok h with ⟨hn, h⟩ | ⟨_, h⟩
  · cases h; exact ⟨ho, hn, rfl⟩
  rcases ite_ok h with ⟨hn, h⟩ | ⟨_, h⟩
  · cases h; exact ⟨ho, hn, rfl⟩
  rcases ite_ok h with ⟨hn, h⟩ | ⟨_, h⟩
  · cases h; exact ⟨ho, hn, rfl⟩
  rcases ite_ok h with ⟨hn, h⟩ | ⟨_, h⟩
  · cases h; exact ⟨ho, hn, rfl⟩
  rcases ite_ok h with ⟨hn, h⟩ | ⟨_, h⟩
  · cases h; exact ⟨ho, hn, rfl⟩
  rcases ite_ok h with ⟨hn, h⟩ | ⟨_, h⟩
  · cases h; exact ⟨ho, hn, rfl⟩
  rcases ite_ok h with ⟨hn, h⟩ | ⟨_, h⟩
  · cases h; exact ⟨ho, hn, rfl⟩
  rcases ite_ok h with ⟨hn, h⟩ | ⟨_, h⟩
  · cases h; exact ⟨ho, hn, rfl⟩
  rcases ite_ok h with ⟨hn, h⟩ | ⟨_, h⟩
  · cases h; exact ⟨ho, hn, rfl⟩
  cases h

/-- INVERSION of the decoder: a decoded word has its instruction's fixed bits and its operands. -/
theorem decodeWord_ok {w : Word} {i : Instr} (h : decodeWord w = .ok i) : DecodesTo w i := by
  unfold decodeWord at h
  rcases ite_ok h with ⟨_, h⟩ | ⟨h0, h⟩
  · exact decodeFamily0_ok h
  rcases ite_ok h with ⟨ho, h⟩ | ⟨h1, h⟩
  · cases h; exact ⟨ho, rfl⟩
  rcases ite_ok h with ⟨ho, h⟩ | ⟨h2, h⟩
  · cases h; exact ⟨ho, rfl⟩
  rcases ite_ok h with ⟨ho, h⟩ | ⟨h3, h⟩
  · cases h; exact ⟨ho, rfl, rfl⟩
  rcases ite_ok h with ⟨ho, h⟩ | ⟨h4, h⟩
  · cases h; exact ⟨ho, rfl, rfl⟩
  rcases ite_ok h with ⟨ho, h⟩ | ⟨h5, h⟩
  · rcases ite_ok h with ⟨hn, h⟩ | ⟨_, h⟩
    · cases h; exact ⟨ho, hn, rfl, rfl⟩
    · cases h
  rcases ite_ok h with ⟨ho, h⟩ | ⟨h6, h⟩
  · cases h; exact ⟨ho, rfl, rfl⟩
  rcases ite_ok h with ⟨ho, h⟩ | ⟨h7, h⟩
  · cases h; exact ⟨ho, rfl, rfl⟩
  rcases ite_ok h with ⟨ho, h⟩ | ⟨h8, h⟩
  · exact decodeFamily8_ok ho h
  rcases ite_ok h with ⟨ho, h⟩ | ⟨h9, h⟩
  · rcases ite_ok h with ⟨hn, h⟩ | ⟨_, h⟩
    · cases h; exact ⟨ho, hn, rfl, rfl⟩
    · cases h
  rcases ite_ok h with ⟨ho, h⟩ | ⟨h10, h⟩
  · cases h; exact ⟨ho, rfl⟩
  rcases ite_ok h with ⟨ho, h⟩ | ⟨h11, h⟩
  · cases h; exact ⟨ho, rfl⟩
  rcases ite_ok h with ⟨ho, h⟩ | ⟨h12, h⟩
  · cases h; exact ⟨ho, rfl, rfl⟩
  rcases ite_ok h with ⟨ho, h⟩ | ⟨h13, h⟩
  · cases h; exact ⟨ho, rfl, rfl, rfl⟩
  rcases ite_ok h with ⟨ho, h⟩ | ⟨h14, h⟩
  · exact decodeFamilyE_ok ho h
  refine decodeFamilyF_ok ?_ h
  generalize fieldOp w = a at *
  bv_omega

end Sys2Proof
end

