-- ==== Sys2Proof/Laws/Memory.lean ====
section
/-! SUPPORT. Laws of memory (Machine/Memory.lean): read after write, and that every memory operation keeps the canonical form. -/

namespace Sys2Proof.Machine.Memory

/-! ### Reading -/

@[simp] theorem get_nil (a : Nat) : get [] a = unlistedByte a := rfl

theorem get_cons (c : Host.Cell) (m : Memory) (a : Nat) : get (c :: m) a = if a = c.1 then c.2 else get m a := by
  obtain ⟨k, x⟩ := c
  by_cases h : a = k
  · simp [get, h]
  · simp [get, List.lookup_cons, h, beq_false_of_ne h]

theorem get_forget (m : Memory) (a b : Nat) : get (forget m a) b = if b = a then unlistedByte a else get m b := by
  induction m with
  | nil => by_cases h : b = a <;> simp [forget, h]
  | cons c m ih =>
    by_cases hc : c.1 = a
    · have : forget (c :: m) a = forget m a := by simp [forget, hc]
      rw [this, ih, get_cons]
      by_cases h : b = a <;> simp [h, hc]
    · have : forget (c :: m) a = c :: forget m a := by simp [forget, hc]
      rw [this, get_cons, ih, get_cons]
      by_cases h : b = a
      · subst h
        simp [Ne.symm hc]
      · simp [h]

theorem get_insertCell (c : Host.Cell) (m : Memory) (b : Nat) (fresh : ∀ d ∈ m, d.1 ≠ c.1) :
    get (insertCell c m) b = if b = c.1 then c.2 else get m b := by
  induction m with
  | nil => simp [insertCell, get_cons]
  | cons d m ih =>
    have hd : d.1 ≠ c.1 := fresh d (by simp)
    have ih := ih fun e he => fresh e (by simp [he])
    unfold insertCell
    split
    · exact get_cons c (d :: m) b
    · rw [get_cons, ih, get_cons]
      by_cases h : b = c.1
      · subst h
        simp [Ne.symm hd]
      · simp [h]

theorem forget_fresh (m : Memory) (a : Nat) : ∀ d ∈ forget m a, d.1 ≠ a := by
  intro d hd
  simpa [forget] using (List.mem_filter.mp hd).2

/-- Read after write: the written address reads as the byte, every other as before (R69). -/
@[simp] theorem get_set (m : Memory) (a b : Nat) (x : Byte) : get (set m a x) b = if b = a then x else get m b := by
  unfold set
  split
  · rename_i h
    rw [get_forget, h]
  · rw [get_insertCell _ _ _ (forget_fresh m a), get_forget]
    by_cases h : b = a <;> simp [h]

/-- Reading after writing a run of bytes (R66). -/
theorem get_setBytes (bs : List Byte) : ∀ (m : Memory) (a b : Nat),
    get (setBytes m a bs) b = if a ≤ b then (bs[b - a]?).getD (get m b) else get m b := by
  induction bs with
  | nil => intro m a b; simp [setBytes]
  | cons x bs ih =>
    intro m a b
    rw [setBytes, ih, get_set]
    by_cases h1 : a + 1 ≤ b
    · have h2 : b - a = (b - (a + 1)) + 1 := by omega
      have h3 : b ≠ a := by omega
      simp [h1, show a ≤ b by omega, h2, h3]
    · by_cases h3 : b = a
      · subst h3; simp
      · simp [h1, h3, show ¬ a ≤ b by omega]

/-- Outside the written run nothing changes. -/
theorem get_setBytes_outside {bs : List Byte} {m : Memory} {a b : Nat} (h : b < a ∨ a + bs.length ≤ b) :
    get (setBytes m a bs) b = get m b := by
  rw [get_setBytes]
  split
  · rw [List.getElem?_eq_none (by omega)]; rfl
  · rfl

/-! ### The canonical form -/

theorem wfFrom_cons (lo : Nat) (c : Host.Cell) (m : Memory) : wfFrom lo (c :: m) = true ↔
    lo ≤ c.1 ∧ c.1 < Config.memSize ∧ c.2 ≠ unlistedByte c.1 ∧ wfFrom (c.1 + 1) m = true := by
  simp [wfFrom, and_assoc]

theorem wfFrom_mono {lo lo' : Nat} {m : Memory} (h : lo' ≤ lo) (w : wfFrom lo m = true) : wfFrom lo' m = true := by
  cases m with
  | nil => rfl
  | cons c m =>
    obtain ⟨h1, h2⟩ := (wfFrom_cons _ _ _).mp w
    exact (wfFrom_cons _ _ _).mpr ⟨by omega, h2⟩

theorem wfFrom_forget (m : Memory) (a : Nat) : ∀ lo, wfFrom lo m = true → wfFrom lo (forget m a) = true := by
  induction m with
  | nil => intro lo w; exact w
  | cons c m ih =>
    intro lo w
    obtain ⟨h1, h2, h3, h4⟩ := (wfFrom_cons _ _ _).mp w
    by_cases hc : c.1 = a
    · have : forget (c :: m) a = forget m a := by simp [forget, hc]
      rw [this]
      exact wfFrom_mono (by omega) (ih _ h4)
    · have : forget (c :: m) a = c :: forget m a := by simp [forget, hc]
      rw [this]
      exact (wfFrom_cons _ _ _).mpr ⟨h1, h2, h3, ih _ h4⟩

theorem wfFrom_insertCell (c : Host.Cell) (hc : c.1 < Config.memSize) (hb : c.2 ≠ unlistedByte c.1) (m : Memory) :
    ∀ lo, lo ≤ c.1 → (∀ d ∈ m, d.1 ≠ c.1) → wfFrom lo m = true → wfFrom lo (insertCell c m) = true := by
  induction m with
  | nil =>
    intro lo hlo _ _
    exact (wfFrom_cons _ _ _).mpr ⟨hlo, hc, hb, rfl⟩
  | cons d m ih =>
    intro lo hlo fresh w
    have hd : d.1 ≠ c.1 := fresh d (by simp)
    obtain ⟨h1, h2, h3, h4⟩ := (wfFrom_cons _ _ _).mp w
    unfold insertCell
    split
    · exact (wfFrom_cons _ _ _).mpr ⟨hlo, hc, hb, (wfFrom_cons _ _ _).mpr ⟨by omega, h2, h3, h4⟩⟩
    · exact (wfFrom_cons _ _ _).mpr ⟨h1, h2, h3, ih _ (by omega) (fun e he => fresh e (by simp [he])) h4⟩

/-- Writing a byte inside the address space keeps the canonical form. -/
theorem wf_set {m : Memory} {a : Nat} (x : Byte) (ha : a < Config.memSize) (w : wf m = true) : wf (set m a x) = true := by
  unfold set
  split
  · exact wfFrom_forget m a 0 w
  · rename_i hx
    exact wfFrom_insertCell (a, x) ha hx _ 0 (Nat.zero_le _) (forget_fresh m a) (wfFrom_forget m a 0 w)

/-- Writing a run of bytes inside the address space keeps the canonical form. -/
theorem wf_setBytes (bs : List Byte) : ∀ {m : Memory} {a : Nat}, a + bs.length ≤ Config.memSize → wf m = true →
    wf (setBytes m a bs) = true := by
  induction bs with
  | nil => intro m a _ w; exact w
  | cons x bs ih =>
    intro m a h w
    simp only [List.length_cons] at h
    exact ih (by omega) (wf_set x (by omega) w)

end Sys2Proof.Machine.Memory
end

