-- ==== Sys2Proof/Laws/State.lean ====
section
/-! SUPPORT. The state's small lemmas: one per field per update and one per derived read per update, so that no proof
unfolds a record update. -/

namespace Sys2Proof.Machine

variable (s : State)

/-! ### `setV` -/

@[simp] theorem State.setV_v (x : Nibble) (b : Byte) : (s.setV x b).v = s.v.set x.toNat b := rfl
@[simp] theorem State.setV_index (x : Nibble) (b : Byte) : (s.setV x b).index = s.index := rfl
@[simp] theorem State.setV_pc (x : Nibble) (b : Byte) : (s.setV x b).pc = s.pc := rfl
@[simp] theorem State.setV_stack (x : Nibble) (b : Byte) : (s.setV x b).stack = s.stack := rfl
@[simp] theorem State.setV_sp (x : Nibble) (b : Byte) : (s.setV x b).sp = s.sp := rfl
@[simp] theorem State.setV_dt (x : Nibble) (b : Byte) : (s.setV x b).dt = s.dt := rfl
@[simp] theorem State.setV_st (x : Nibble) (b : Byte) : (s.setV x b).st = s.st := rfl
@[simp] theorem State.setV_key (x : Nibble) (b : Byte) : (s.setV x b).key = s.key := rfl
@[simp] theorem State.setV_fb (x : Nibble) (b : Byte) : (s.setV x b).fb = s.fb := rfl
@[simp] theorem State.setV_dirty (x : Nibble) (b : Byte) : (s.setV x b).dirty = s.dirty := rfl
@[simp] theorem State.setV_mem (x : Nibble) (b : Byte) : (s.setV x b).mem = s.mem := rfl
@[simp] theorem State.setV_mode (x : Nibble) (b : Byte) : (s.setV x b).mode = s.mode := rfl
@[simp] theorem State.setV_waitx (x : Nibble) (b : Byte) : (s.setV x b).waitx = s.waitx := rfl
@[simp] theorem State.setV_fault (x : Nibble) (b : Byte) : (s.setV x b).fault = s.fault := rfl
@[simp] theorem State.setV_draws (x : Nibble) (b : Byte) : (s.setV x b).draws = s.draws := rfl
@[simp] theorem State.setV_getKey (x : Nibble) (b : Byte) (k' : Nibble) : (s.setV x b).getKey k' = s.getKey k' := rfl
@[simp] theorem State.setV_pixel (x : Nibble) (b : Byte) (row col : Nat) : (s.setV x b).pixel row col = s.pixel row col := rfl
@[simp] theorem State.setV_readByte (x : Nibble) (b : Byte) (a' : Nat) : (s.setV x b).readByte a' = s.readByte a' := rfl

/-! ### `setVs` -/

@[simp] theorem State.setVs_v (w : Vector Byte 16) : (s.setVs w).v = w := rfl
@[simp] theorem State.setVs_index (w : Vector Byte 16) : (s.setVs w).index = s.index := rfl
@[simp] theorem State.setVs_pc (w : Vector Byte 16) : (s.setVs w).pc = s.pc := rfl
@[simp] theorem State.setVs_stack (w : Vector Byte 16) : (s.setVs w).stack = s.stack := rfl
@[simp] theorem State.setVs_sp (w : Vector Byte 16) : (s.setVs w).sp = s.sp := rfl
@[simp] theorem State.setVs_dt (w : Vector Byte 16) : (s.setVs w).dt = s.dt := rfl
@[simp] theorem State.setVs_st (w : Vector Byte 16) : (s.setVs w).st = s.st := rfl
@[simp] theorem State.setVs_key (w : Vector Byte 16) : (s.setVs w).key = s.key := rfl
@[simp] theorem State.setVs_fb (w : Vector Byte 16) : (s.setVs w).fb = s.fb := rfl
@[simp] theorem State.setVs_dirty (w : Vector Byte 16) : (s.setVs w).dirty = s.dirty := rfl
@[simp] theorem State.setVs_mem (w : Vector Byte 16) : (s.setVs w).mem = s.mem := rfl
@[simp] theorem State.setVs_mode (w : Vector Byte 16) : (s.setVs w).mode = s.mode := rfl
@[simp] theorem State.setVs_waitx (w : Vector Byte 16) : (s.setVs w).waitx = s.waitx := rfl
@[simp] theorem State.setVs_fault (w : Vector Byte 16) : (s.setVs w).fault = s.fault := rfl
@[simp] theorem State.setVs_draws (w : Vector Byte 16) : (s.setVs w).draws = s.draws := rfl
@[simp] theorem State.setVs_getKey (w : Vector Byte 16) (k' : Nibble) : (s.setVs w).getKey k' = s.getKey k' := rfl
@[simp] theorem State.setVs_pixel (w : Vector Byte 16) (row col : Nat) : (s.setVs w).pixel row col = s.pixel row col := rfl
@[simp] theorem State.setVs_readByte (w : Vector Byte 16) (a' : Nat) : (s.setVs w).readByte a' = s.readByte a' := rfl

/-! ### `setI` -/

@[simp] theorem State.setI_v (w : Word) : (s.setI w).v = s.v := rfl
@[simp] theorem State.setI_index (w : Word) : (s.setI w).index = w := rfl
@[simp] theorem State.setI_pc (w : Word) : (s.setI w).pc = s.pc := rfl
@[simp] theorem State.setI_stack (w : Word) : (s.setI w).stack = s.stack := rfl
@[simp] theorem State.setI_sp (w : Word) : (s.setI w).sp = s.sp := rfl
@[simp] theorem State.setI_dt (w : Word) : (s.setI w).dt = s.dt := rfl
@[simp] theorem State.setI_st (w : Word) : (s.setI w).st = s.st := rfl
@[simp] theorem State.setI_key (w : Word) : (s.setI w).key = s.key := rfl
@[simp] theorem State.setI_fb (w : Word) : (s.setI w).fb = s.fb := rfl
@[simp] theorem State.setI_dirty (w : Word) : (s.setI w).dirty = s.dirty := rfl
@[simp] theorem State.setI_mem (w : Word) : (s.setI w).mem = s.mem := rfl
@[simp] theorem State.setI_mode (w : Word) : (s.setI w).mode = s.mode := rfl
@[simp] theorem State.setI_waitx (w : Word) : (s.setI w).waitx = s.waitx := rfl
@[simp] theorem State.setI_fault (w : Word) : (s.setI w).fault = s.fault := rfl
@[simp] theorem State.setI_draws (w : Word) : (s.setI w).draws = s.draws := rfl
@[simp] theorem State.setI_getV (w : Word) (j : Nibble) : (s.setI w).getV j = s.getV j := rfl
@[simp] theorem State.setI_getKey (w : Word) (k' : Nibble) : (s.setI w).getKey k' = s.getKey k' := rfl
@[simp] theorem State.setI_pixel (w : Word) (row col : Nat) : (s.setI w).pixel row col = s.pixel row col := rfl
@[simp] theorem State.setI_readByte (w : Word) (a' : Nat) : (s.setI w).readByte a' = s.readByte a' := rfl

/-! ### `setPc` -/

@[simp] theorem State.setPc_v (w : Word) : (s.setPc w).v = s.v := rfl
@[simp] theorem State.setPc_index (w : Word) : (s.setPc w).index = s.index := rfl
@[simp] theorem State.setPc_pc (w : Word) : (s.setPc w).pc = w := rfl
@[simp] theorem State.setPc_stack (w : Word) : (s.setPc w).stack = s.stack := rfl
@[simp] theorem State.setPc_sp (w : Word) : (s.setPc w).sp = s.sp := rfl
@[simp] theorem State.setPc_dt (w : Word) : (s.setPc w).dt = s.dt := rfl
@[simp] theorem State.setPc_st (w : Word) : (s.setPc w).st = s.st := rfl
@[simp] theorem State.setPc_key (w : Word) : (s.setPc w).key = s.key := rfl
@[simp] theorem State.setPc_fb (w : Word) : (s.setPc w).fb = s.fb := rfl
@[simp] theorem State.setPc_dirty (w : Word) : (s.setPc w).dirty = s.dirty := rfl
@[simp] theorem State.setPc_mem (w : Word) : (s.setPc w).mem = s.mem := rfl
@[simp] theorem State.setPc_mode (w : Word) : (s.setPc w).mode = s.mode := rfl
@[simp] theorem State.setPc_waitx (w : Word) : (s.setPc w).waitx = s.waitx := rfl
@[simp] theorem State.setPc_fault (w : Word) : (s.setPc w).fault = s.fault := rfl
@[simp] theorem State.setPc_draws (w : Word) : (s.setPc w).draws = s.draws := rfl
@[simp] theorem State.setPc_getV (w : Word) (j : Nibble) : (s.setPc w).getV j = s.getV j := rfl
@[simp] theorem State.setPc_getKey (w : Word) (k' : Nibble) : (s.setPc w).getKey k' = s.getKey k' := rfl
@[simp] theorem State.setPc_pixel (w : Word) (row col : Nat) : (s.setPc w).pixel row col = s.pixel row col := rfl
@[simp] theorem State.setPc_readByte (w : Word) (a' : Nat) : (s.setPc w).readByte a' = s.readByte a' := rfl

/-! ### `setStack` -/

@[simp] theorem State.setStack_v (k : Vector Word 16) (p : Fin 17) : (s.setStack k p).v = s.v := rfl
@[simp] theorem State.setStack_index (k : Vector Word 16) (p : Fin 17) : (s.setStack k p).index = s.index := rfl
@[simp] theorem State.setStack_pc (k : Vector Word 16) (p : Fin 17) : (s.setStack k p).pc = s.pc := rfl
@[simp] theorem State.setStack_stack (k : Vector Word 16) (p : Fin 17) : (s.setStack k p).stack = k := rfl
@[simp] theorem State.setStack_sp (k : Vector Word 16) (p : Fin 17) : (s.setStack k p).sp = p := rfl
@[simp] theorem State.setStack_dt (k : Vector Word 16) (p : Fin 17) : (s.setStack k p).dt = s.dt := rfl
@[simp] theorem State.setStack_st (k : Vector Word 16) (p : Fin 17) : (s.setStack k p).st = s.st := rfl
@[simp] theorem State.setStack_key (k : Vector Word 16) (p : Fin 17) : (s.setStack k p).key = s.key := rfl
@[simp] theorem State.setStack_fb (k : Vector Word 16) (p : Fin 17) : (s.setStack k p).fb = s.fb := rfl
@[simp] theorem State.setStack_dirty (k : Vector Word 16) (p : Fin 17) : (s.setStack k p).dirty = s.dirty := rfl
@[simp] theorem State.setStack_mem (k : Vector Word 16) (p : Fin 17) : (s.setStack k p).mem = s.mem := rfl
@[simp] theorem State.setStack_mode (k : Vector Word 16) (p : Fin 17) : (s.setStack k p).mode = s.mode := rfl
@[simp] theorem State.setStack_waitx (k : Vector Word 16) (p : Fin 17) : (s.setStack k p).waitx = s.waitx := rfl
@[simp] theorem State.setStack_fault (k : Vector Word 16) (p : Fin 17) : (s.setStack k p).fault = s.fault := rfl
@[simp] theorem State.setStack_draws (k : Vector Word 16) (p : Fin 17) : (s.setStack k p).draws = s.draws := rfl
@[simp] theorem State.setStack_getV (k : Vector Word 16) (p : Fin 17) (j : Nibble) : (s.setStack k p).getV j = s.getV j := rfl
@[simp] theorem State.setStack_getKey (k : Vector Word 16) (p : Fin 17) (k' : Nibble) : (s.setStack k p).getKey k' = s.getKey k' := rfl
@[simp] theorem State.setStack_pixel (k : Vector Word 16) (p : Fin 17) (row col : Nat) : (s.setStack k p).pixel row col = s.pixel row col := rfl
@[simp] theorem State.setStack_readByte (k : Vector Word 16) (p : Fin 17) (a' : Nat) : (s.setStack k p).readByte a' = s.readByte a' := rfl

/-! ### `setDt` -/

@[simp] theorem State.setDt_v (b : Byte) : (s.setDt b).v = s.v := rfl
@[simp] theorem State.setDt_index (b : Byte) : (s.setDt b).index = s.index := rfl
@[simp] theorem State.setDt_pc (b : Byte) : (s.setDt b).pc = s.pc := rfl
@[simp] theorem State.setDt_stack (b : Byte) : (s.setDt b).stack = s.stack := rfl
@[simp] theorem State.setDt_sp (b : Byte) : (s.setDt b).sp = s.sp := rfl
@[simp] theorem State.setDt_dt (b : Byte) : (s.setDt b).dt = b := rfl
@[simp] theorem State.setDt_st (b : Byte) : (s.setDt b).st = s.st := rfl
@[simp] theorem State.setDt_key (b : Byte) : (s.setDt b).key = s.key := rfl
@[simp] theorem State.setDt_fb (b : Byte) : (s.setDt b).fb = s.fb := rfl
@[simp] theorem State.setDt_dirty (b : Byte) : (s.setDt b).dirty = s.dirty := rfl
@[simp] theorem State.setDt_mem (b : Byte) : (s.setDt b).mem = s.mem := rfl
@[simp] theorem State.setDt_mode (b : Byte) : (s.setDt b).mode = s.mode := rfl
@[simp] theorem State.setDt_waitx (b : Byte) : (s.setDt b).waitx = s.waitx := rfl
@[simp] theorem State.setDt_fault (b : Byte) : (s.setDt b).fault = s.fault := rfl
@[simp] theorem State.setDt_draws (b : Byte) : (s.setDt b).draws = s.draws := rfl
@[simp] theorem State.setDt_getV (b : Byte) (j : Nibble) : (s.setDt b).getV j = s.getV j := rfl
@[simp] theorem State.setDt_getKey (b : Byte) (k' : Nibble) : (s.setDt b).getKey k' = s.getKey k' := rfl
@[simp] theorem State.setDt_pixel (b : Byte) (row col : Nat) : (s.setDt b).pixel row col = s.pixel row col := rfl
@[simp] theorem State.setDt_readByte (b : Byte) (a' : Nat) : (s.setDt b).readByte a' = s.readByte a' := rfl

/-! ### `setSt` -/

@[simp] theorem State.setSt_v (b : Byte) : (s.setSt b).v = s.v := rfl
@[simp] theorem State.setSt_index (b : Byte) : (s.setSt b).index = s.index := rfl
@[simp] theorem State.setSt_pc (b : Byte) : (s.setSt b).pc = s.pc := rfl
@[simp] theorem State.setSt_stack (b : Byte) : (s.setSt b).stack = s.stack := rfl
@[simp] theorem State.setSt_sp (b : Byte) : (s.setSt b).sp = s.sp := rfl
@[simp] theorem State.setSt_dt (b : Byte) : (s.setSt b).dt = s.dt := rfl
@[simp] theorem State.setSt_st (b : Byte) : (s.setSt b).st = b := rfl
@[simp] theorem State.setSt_key (b : Byte) : (s.setSt b).key = s.key := rfl
@[simp] theorem State.setSt_fb (b : Byte) : (s.setSt b).fb = s.fb := rfl
@[simp] theorem State.setSt_dirty (b : Byte) : (s.setSt b).dirty = s.dirty := rfl
@[simp] theorem State.setSt_mem (b : Byte) : (s.setSt b).mem = s.mem := rfl
@[simp] theorem State.setSt_mode (b : Byte) : (s.setSt b).mode = s.mode := rfl
@[simp] theorem State.setSt_waitx (b : Byte) : (s.setSt b).waitx = s.waitx := rfl
@[simp] theorem State.setSt_fault (b : Byte) : (s.setSt b).fault = s.fault := rfl
@[simp] theorem State.setSt_draws (b : Byte) : (s.setSt b).draws = s.draws := rfl
@[simp] theorem State.setSt_getV (b : Byte) (j : Nibble) : (s.setSt b).getV j = s.getV j := rfl
@[simp] theorem State.setSt_getKey (b : Byte) (k' : Nibble) : (s.setSt b).getKey k' = s.getKey k' := rfl
@[simp] theorem State.setSt_pixel (b : Byte) (row col : Nat) : (s.setSt b).pixel row col = s.pixel row col := rfl
@[simp] theorem State.setSt_readByte (b : Byte) (a' : Nat) : (s.setSt b).readByte a' = s.readByte a' := rfl

/-! ### `setKey` -/

@[simp] theorem State.setKey_v (k : Vector Bool 16) : (s.setKey k).v = s.v := rfl
@[simp] theorem State.setKey_index (k : Vector Bool 16) : (s.setKey k).index = s.index := rfl
@[simp] theorem State.setKey_pc (k : Vector Bool 16) : (s.setKey k).pc = s.pc := rfl
@[simp] theorem State.setKey_stack (k : Vector Bool 16) : (s.setKey k).stack = s.stack := rfl
@[simp] theorem State.setKey_sp (k : Vector Bool 16) : (s.setKey k).sp = s.sp := rfl
@[simp] theorem State.setKey_dt (k : Vector Bool 16) : (s.setKey k).dt = s.dt := rfl
@[simp] theorem State.setKey_st (k : Vector Bool 16) : (s.setKey k).st = s.st := rfl
@[simp] theorem State.setKey_key (k : Vector Bool 16) : (s.setKey k).key = k := rfl
@[simp] theorem State.setKey_fb (k : Vector Bool 16) : (s.setKey k).fb = s.fb := rfl
@[simp] theorem State.setKey_dirty (k : Vector Bool 16) : (s.setKey k).dirty = s.dirty := rfl
@[simp] theorem State.setKey_mem (k : Vector Bool 16) : (s.setKey k).mem = s.mem := rfl
@[simp] theorem State.setKey_mode (k : Vector Bool 16) : (s.setKey k).mode = s.mode := rfl
@[simp] theorem State.setKey_waitx (k : Vector Bool 16) : (s.setKey k).waitx = s.waitx := rfl
@[simp] theorem State.setKey_fault (k : Vector Bool 16) : (s.setKey k).fault = s.fault := rfl
@[simp] theorem State.setKey_draws (k : Vector Bool 16) : (s.setKey k).draws = s.draws := rfl
@[simp] theorem State.setKey_getV (k : Vector Bool 16) (j : Nibble) : (s.setKey k).getV j = s.getV j := rfl
@[simp] theorem State.setKey_pixel (k : Vector Bool 16) (row col : Nat) : (s.setKey k).pixel row col = s.pixel row col := rfl
@[simp] theorem State.setKey_readByte (k : Vector Bool 16) (a' : Nat) : (s.setKey k).readByte a' = s.readByte a' := rfl

/-! ### `setFb` -/

@[simp] theorem State.setFb_v (g : Vector (BitVec 64) 32) : (s.setFb g).v = s.v := rfl
@[simp] theorem State.setFb_index (g : Vector (BitVec 64) 32) : (s.setFb g).index = s.index := rfl
@[simp] theorem State.setFb_pc (g : Vector (BitVec 64) 32) : (s.setFb g).pc = s.pc := rfl
@[simp] theorem State.setFb_stack (g : Vector (BitVec 64) 32) : (s.setFb g).stack = s.stack := rfl
@[simp] theorem State.setFb_sp (g : Vector (BitVec 64) 32) : (s.setFb g).sp = s.sp := rfl
@[simp] theorem State.setFb_dt (g : Vector (BitVec 64) 32) : (s.setFb g).dt = s.dt := rfl
@[simp] theorem State.setFb_st (g : Vector (BitVec 64) 32) : (s.setFb g).st = s.st := rfl
@[simp] theorem State.setFb_key (g : Vector (BitVec 64) 32) : (s.setFb g).key = s.key := rfl
@[simp] theorem State.setFb_fb (g : Vector (BitVec 64) 32) : (s.setFb g).fb = g := rfl
@[simp] theorem State.setFb_dirty (g : Vector (BitVec 64) 32) : (s.setFb g).dirty = s.dirty := rfl
@[simp] theorem State.setFb_mem (g : Vector (BitVec 64) 32) : (s.setFb g).mem = s.mem := rfl
@[simp] theorem State.setFb_mode (g : Vector (BitVec 64) 32) : (s.setFb g).mode = s.mode := rfl
@[simp] theorem State.setFb_waitx (g : Vector (BitVec 64) 32) : (s.setFb g).waitx = s.waitx := rfl
@[simp] theorem State.setFb_fault (g : Vector (BitVec 64) 32) : (s.setFb g).fault = s.fault := rfl
@[simp] theorem State.setFb_draws (g : Vector (BitVec 64) 32) : (s.setFb g).draws = s.draws := rfl
@[simp] theorem State.setFb_getV (g : Vector (BitVec 64) 32) (j : Nibble) : (s.setFb g).getV j = s.getV j := rfl
@[simp] theorem State.setFb_getKey (g : Vector (BitVec 64) 32) (k' : Nibble) : (s.setFb g).getKey k' = s.getKey k' := rfl
@[simp] theorem State.setFb_readByte (g : Vector (BitVec 64) 32) (a' : Nat) : (s.setFb g).readByte a' = s.readByte a' := rfl

/-! ### `setDirty` -/

@[simp] theorem State.setDirty_v (d : Bool) : (s.setDirty d).v = s.v := rfl
@[simp] theorem State.setDirty_index (d : Bool) : (s.setDirty d).index = s.index := rfl
@[simp] theorem State.setDirty_pc (d : Bool) : (s.setDirty d).pc = s.pc := rfl
@[simp] theorem State.setDirty_stack (d : Bool) : (s.setDirty d).stack = s.stack := rfl
@[simp] theorem State.setDirty_sp (d : Bool) : (s.setDirty d).sp = s.sp := rfl
@[simp] theorem State.setDirty_dt (d : Bool) : (s.setDirty d).dt = s.dt := rfl
@[simp] theorem State.setDirty_st (d : Bool) : (s.setDirty d).st = s.st := rfl
@[simp] theorem State.setDirty_key (d : Bool) : (s.setDirty d).key = s.key := rfl
@[simp] theorem State.setDirty_fb (d : Bool) : (s.setDirty d).fb = s.fb := rfl
@[simp] theorem State.setDirty_dirty (d : Bool) : (s.setDirty d).dirty = d := rfl
@[simp] theorem State.setDirty_mem (d : Bool) : (s.setDirty d).mem = s.mem := rfl
@[simp] theorem State.setDirty_mode (d : Bool) : (s.setDirty d).mode = s.mode := rfl
@[simp] theorem State.setDirty_waitx (d : Bool) : (s.setDirty d).waitx = s.waitx := rfl
@[simp] theorem State.setDirty_fault (d : Bool) : (s.setDirty d).fault = s.fault := rfl
@[simp] theorem State.setDirty_draws (d : Bool) : (s.setDirty d).draws = s.draws := rfl
@[simp] theorem State.setDirty_getV (d : Bool) (j : Nibble) : (s.setDirty d).getV j = s.getV j := rfl
@[simp] theorem State.setDirty_getKey (d : Bool) (k' : Nibble) : (s.setDirty d).getKey k' = s.getKey k' := rfl
@[simp] theorem State.setDirty_pixel (d : Bool) (row col : Nat) : (s.setDirty d).pixel row col = s.pixel row col := rfl
@[simp] theorem State.setDirty_readByte (d : Bool) (a' : Nat) : (s.setDirty d).readByte a' = s.readByte a' := rfl

/-! ### `setMem` -/

@[simp] theorem State.setMem_v (m : Memory) : (s.setMem m).v = s.v := rfl
@[simp] theorem State.setMem_index (m : Memory) : (s.setMem m).index = s.index := rfl
@[simp] theorem State.setMem_pc (m : Memory) : (s.setMem m).pc = s.pc := rfl
@[simp] theorem State.setMem_stack (m : Memory) : (s.setMem m).stack = s.stack := rfl
@[simp] theorem State.setMem_sp (m : Memory) : (s.setMem m).sp = s.sp := rfl
@[simp] theorem State.setMem_dt (m : Memory) : (s.setMem m).dt = s.dt := rfl
@[simp] theorem State.setMem_st (m : Memory) : (s.setMem m).st = s.st := rfl
@[simp] theorem State.setMem_key (m : Memory) : (s.setMem m).key = s.key := rfl
@[simp] theorem State.setMem_fb (m : Memory) : (s.setMem m).fb = s.fb := rfl
@[simp] theorem State.setMem_dirty (m : Memory) : (s.setMem m).dirty = s.dirty := rfl
@[simp] theorem State.setMem_mem (m : Memory) : (s.setMem m).mem = m := rfl
@[simp] theorem State.setMem_mode (m : Memory) : (s.setMem m).mode = s.mode := rfl
@[simp] theorem State.setMem_waitx (m : Memory) : (s.setMem m).waitx = s.waitx := rfl
@[simp] theorem State.setMem_fault (m : Memory) : (s.setMem m).fault = s.fault := rfl
@[simp] theorem State.setMem_draws (m : Memory) : (s.setMem m).draws = s.draws := rfl
@[simp] theorem State.setMem_getV (m : Memory) (j : Nibble) : (s.setMem m).getV j = s.getV j := rfl
@[simp] theorem State.setMem_getKey (m : Memory) (k' : Nibble) : (s.setMem m).getKey k' = s.getKey k' := rfl
@[simp] theorem State.setMem_pixel (m : Memory) (row col : Nat) : (s.setMem m).pixel row col = s.pixel row col := rfl

/-! ### `setMode` -/

@[simp] theorem State.setMode_v (m : Mode) : (s.setMode m).v = s.v := rfl
@[simp] theorem State.setMode_index (m : Mode) : (s.setMode m).index = s.index := rfl
@[simp] theorem State.setMode_pc (m : Mode) : (s.setMode m).pc = s.pc := rfl
@[simp] theorem State.setMode_stack (m : Mode) : (s.setMode m).stack = s.stack := rfl
@[simp] theorem State.setMode_sp (m : Mode) : (s.setMode m).sp = s.sp := rfl
@[simp] theorem State.setMode_dt (m : Mode) : (s.setMode m).dt = s.dt := rfl
@[simp] theorem State.setMode_st (m : Mode) : (s.setMode m).st = s.st := rfl
@[simp] theorem State.setMode_key (m : Mode) : (s.setMode m).key = s.key := rfl
@[simp] theorem State.setMode_fb (m : Mode) : (s.setMode m).fb = s.fb := rfl
@[simp] theorem State.setMode_dirty (m : Mode) : (s.setMode m).dirty = s.dirty := rfl
@[simp] theorem State.setMode_mem (m : Mode) : (s.setMode m).mem = s.mem := rfl
@[simp] theorem State.setMode_mode (m : Mode) : (s.setMode m).mode = m := rfl
@[simp] theorem State.setMode_waitx (m : Mode) : (s.setMode m).waitx = s.waitx := rfl
@[simp] theorem State.setMode_fault (m : Mode) : (s.setMode m).fault = s.fault := rfl
@[simp] theorem State.setMode_draws (m : Mode) : (s.setMode m).draws = s.draws := rfl
@[simp] theorem State.setMode_getV (m : Mode) (j : Nibble) : (s.setMode m).getV j = s.getV j := rfl
@[simp] theorem State.setMode_getKey (m : Mode) (k' : Nibble) : (s.setMode m).getKey k' = s.getKey k' := rfl
@[simp] theorem State.setMode_pixel (m : Mode) (row col : Nat) : (s.setMode m).pixel row col = s.pixel row col := rfl
@[simp] theorem State.setMode_readByte (m : Mode) (a' : Nat) : (s.setMode m).readByte a' = s.readByte a' := rfl

/-! ### `setWaitx` -/

@[simp] theorem State.setWaitx_v (x : Nibble) : (s.setWaitx x).v = s.v := rfl
@[simp] theorem State.setWaitx_index (x : Nibble) : (s.setWaitx x).index = s.index := rfl
@[simp] theorem State.setWaitx_pc (x : Nibble) : (s.setWaitx x).pc = s.pc := rfl
@[simp] theorem State.setWaitx_stack (x : Nibble) : (s.setWaitx x).stack = s.stack := rfl
@[simp] theorem State.setWaitx_sp (x : Nibble) : (s.setWaitx x).sp = s.sp := rfl
@[simp] theorem State.setWaitx_dt (x : Nibble) : (s.setWaitx x).dt = s.dt := rfl
@[simp] theorem State.setWaitx_st (x : Nibble) : (s.setWaitx x).st = s.st := rfl
@[simp] theorem State.setWaitx_key (x : Nibble) : (s.setWaitx x).key = s.key := rfl
@[simp] theorem State.setWaitx_fb (x : Nibble) : (s.setWaitx x).fb = s.fb := rfl
@[simp] theorem State.setWaitx_dirty (x : Nibble) : (s.setWaitx x).dirty = s.dirty := rfl
@[simp] theorem State.setWaitx_mem (x : Nibble) : (s.setWaitx x).mem = s.mem := rfl
@[simp] theorem State.setWaitx_mode (x : Nibble) : (s.setWaitx x).mode = s.mode := rfl
@[simp] theorem State.setWaitx_waitx (x : Nibble) : (s.setWaitx x).waitx = x := rfl
@[simp] theorem State.setWaitx_fault (x : Nibble) : (s.setWaitx x).fault = s.fault := rfl
@[simp] theorem State.setWaitx_draws (x : Nibble) : (s.setWaitx x).draws = s.draws := rfl
@[simp] theorem State.setWaitx_getV (x : Nibble) (j : Nibble) : (s.setWaitx x).getV j = s.getV j := rfl
@[simp] theorem State.setWaitx_getKey (x : Nibble) (k' : Nibble) : (s.setWaitx x).getKey k' = s.getKey k' := rfl
@[simp] theorem State.setWaitx_pixel (x : Nibble) (row col : Nat) : (s.setWaitx x).pixel row col = s.pixel row col := rfl
@[simp] theorem State.setWaitx_readByte (x : Nibble) (a' : Nat) : (s.setWaitx x).readByte a' = s.readByte a' := rfl

/-! ### `setFault` -/

@[simp] theorem State.setFault_v (r : FaultRecord) : (s.setFault r).v = s.v := rfl
@[simp] theorem State.setFault_index (r : FaultRecord) : (s.setFault r).index = s.index := rfl
@[simp] theorem State.setFault_pc (r : FaultRecord) : (s.setFault r).pc = s.pc := rfl
@[simp] theorem State.setFault_stack (r : FaultRecord) : (s.setFault r).stack = s.stack := rfl
@[simp] theorem State.setFault_sp (r : FaultRecord) : (s.setFault r).sp = s.sp := rfl
@[simp] theorem State.setFault_dt (r : FaultRecord) : (s.setFault r).dt = s.dt := rfl
@[simp] theorem State.setFault_st (r : FaultRecord) : (s.setFault r).st = s.st := rfl
@[simp] theorem State.setFault_key (r : FaultRecord) : (s.setFault r).key = s.key := rfl
@[simp] theorem State.setFault_fb (r : FaultRecord) : (s.setFault r).fb = s.fb := rfl
@[simp] theorem State.setFault_dirty (r : FaultRecord) : (s.setFault r).dirty = s.dirty := rfl
@[simp] theorem State.setFault_mem (r : FaultRecord) : (s.setFault r).mem = s.mem := rfl
@[simp] theorem State.setFault_mode (r : FaultRecord) : (s.setFault r).mode = s.mode := rfl
@[simp] theorem State.setFault_waitx (r : FaultRecord) : (s.setFault r).waitx = s.waitx := rfl
@[simp] theorem State.setFault_fault (r : FaultRecord) : (s.setFault r).fault = r := rfl
@[simp] theorem State.setFault_draws (r : FaultRecord) : (s.setFault r).draws = s.draws := rfl
@[simp] theorem State.setFault_getV (r : FaultRecord) (j : Nibble) : (s.setFault r).getV j = s.getV j := rfl
@[simp] theorem State.setFault_getKey (r : FaultRecord) (k' : Nibble) : (s.setFault r).getKey k' = s.getKey k' := rfl
@[simp] theorem State.setFault_pixel (r : FaultRecord) (row col : Nat) : (s.setFault r).pixel row col = s.pixel row col := rfl
@[simp] theorem State.setFault_readByte (r : FaultRecord) (a' : Nat) : (s.setFault r).readByte a' = s.readByte a' := rfl

/-! ### `setDraws` -/

@[simp] theorem State.setDraws_v (n : Nat) : (s.setDraws n).v = s.v := rfl
@[simp] theorem State.setDraws_index (n : Nat) : (s.setDraws n).index = s.index := rfl
@[simp] theorem State.setDraws_pc (n : Nat) : (s.setDraws n).pc = s.pc := rfl
@[simp] theorem State.setDraws_stack (n : Nat) : (s.setDraws n).stack = s.stack := rfl
@[simp] theorem State.setDraws_sp (n : Nat) : (s.setDraws n).sp = s.sp := rfl
@[simp] theorem State.setDraws_dt (n : Nat) : (s.setDraws n).dt = s.dt := rfl
@[simp] theorem State.setDraws_st (n : Nat) : (s.setDraws n).st = s.st := rfl
@[simp] theorem State.setDraws_key (n : Nat) : (s.setDraws n).key = s.key := rfl
@[simp] theorem State.setDraws_fb (n : Nat) : (s.setDraws n).fb = s.fb := rfl
@[simp] theorem State.setDraws_dirty (n : Nat) : (s.setDraws n).dirty = s.dirty := rfl
@[simp] theorem State.setDraws_mem (n : Nat) : (s.setDraws n).mem = s.mem := rfl
@[simp] theorem State.setDraws_mode (n : Nat) : (s.setDraws n).mode = s.mode := rfl
@[simp] theorem State.setDraws_waitx (n : Nat) : (s.setDraws n).waitx = s.waitx := rfl
@[simp] theorem State.setDraws_fault (n : Nat) : (s.setDraws n).fault = s.fault := rfl
@[simp] theorem State.setDraws_draws (n : Nat) : (s.setDraws n).draws = n := rfl
@[simp] theorem State.setDraws_getV (n : Nat) (j : Nibble) : (s.setDraws n).getV j = s.getV j := rfl
@[simp] theorem State.setDraws_getKey (n : Nat) (k' : Nibble) : (s.setDraws n).getKey k' = s.getKey k' := rfl
@[simp] theorem State.setDraws_pixel (n : Nat) (row col : Nat) : (s.setDraws n).pixel row col = s.pixel row col := rfl
@[simp] theorem State.setDraws_readByte (n : Nat) (a' : Nat) : (s.setDraws n).readByte a' = s.readByte a' := rfl

/-! ### `advance` -/

@[simp] theorem State.advance_v : (s.advance).v = s.v := rfl
@[simp] theorem State.advance_index : (s.advance).index = s.index := rfl
@[simp] theorem State.advance_pc : (s.advance).pc = s.pc + 2 := rfl
@[simp] theorem State.advance_stack : (s.advance).stack = s.stack := rfl
@[simp] theorem State.advance_sp : (s.advance).sp = s.sp := rfl
@[simp] theorem State.advance_dt : (s.advance).dt = s.dt := rfl
@[simp] theorem State.advance_st : (s.advance).st = s.st := rfl
@[simp] theorem State.advance_key : (s.advance).key = s.key := rfl
@[simp] theorem State.advance_fb : (s.advance).fb = s.fb := rfl
@[simp] theorem State.advance_dirty : (s.advance).dirty = s.dirty := rfl
@[simp] theorem State.advance_mem : (s.advance).mem = s.mem := rfl
@[simp] theorem State.advance_mode : (s.advance).mode = s.mode := rfl
@[simp] theorem State.advance_waitx : (s.advance).waitx = s.waitx := rfl
@[simp] theorem State.advance_fault : (s.advance).fault = s.fault := rfl
@[simp] theorem State.advance_draws : (s.advance).draws = s.draws := rfl
@[simp] theorem State.advance_getV (j : Nibble) : (s.advance).getV j = s.getV j := rfl
@[simp] theorem State.advance_getKey (k' : Nibble) : (s.advance).getKey k' = s.getKey k' := rfl
@[simp] theorem State.advance_pixel (row col : Nat) : (s.advance).pixel row col = s.pixel row col := rfl
@[simp] theorem State.advance_readByte (a' : Nat) : (s.advance).readByte a' = s.readByte a' := rfl

/-! ### `nextDraw` -/

@[simp] theorem State.nextDraw_v : (s.nextDraw).v = s.v := rfl
@[simp] theorem State.nextDraw_index : (s.nextDraw).index = s.index := rfl
@[simp] theorem State.nextDraw_pc : (s.nextDraw).pc = s.pc := rfl
@[simp] theorem State.nextDraw_stack : (s.nextDraw).stack = s.stack := rfl
@[simp] theorem State.nextDraw_sp : (s.nextDraw).sp = s.sp := rfl
@[simp] theorem State.nextDraw_dt : (s.nextDraw).dt = s.dt := rfl
@[simp] theorem State.nextDraw_st : (s.nextDraw).st = s.st := rfl
@[simp] theorem State.nextDraw_key : (s.nextDraw).key = s.key := rfl
@[simp] theorem State.nextDraw_fb : (s.nextDraw).fb = s.fb := rfl
@[simp] theorem State.nextDraw_dirty : (s.nextDraw).dirty = s.dirty := rfl
@[simp] theorem State.nextDraw_mem : (s.nextDraw).mem = s.mem := rfl
@[simp] theorem State.nextDraw_mode : (s.nextDraw).mode = s.mode := rfl
@[simp] theorem State.nextDraw_waitx : (s.nextDraw).waitx = s.waitx := rfl
@[simp] theorem State.nextDraw_fault : (s.nextDraw).fault = s.fault := rfl
@[simp] theorem State.nextDraw_draws : (s.nextDraw).draws = s.draws + 1 := rfl
@[simp] theorem State.nextDraw_getV (j : Nibble) : (s.nextDraw).getV j = s.getV j := rfl
@[simp] theorem State.nextDraw_getKey (k' : Nibble) : (s.nextDraw).getKey k' = s.getKey k' := rfl
@[simp] theorem State.nextDraw_pixel (row col : Nat) : (s.nextDraw).pixel row col = s.pixel row col := rfl
@[simp] theorem State.nextDraw_readByte (a' : Nat) : (s.nextDraw).readByte a' = s.readByte a' := rfl

/-! ### `storeBytes` -/

@[simp] theorem State.storeBytes_v (a : Nat) (bs : List Byte) : (s.storeBytes a bs).v = s.v := rfl
@[simp] theorem State.storeBytes_index (a : Nat) (bs : List Byte) : (s.storeBytes a bs).index = s.index := rfl
@[simp] theorem State.storeBytes_pc (a : Nat) (bs : List Byte) : (s.storeBytes a bs).pc = s.pc := rfl
@[simp] theorem State.storeBytes_stack (a : Nat) (bs : List Byte) : (s.storeBytes a bs).stack = s.stack := rfl
@[simp] theorem State.storeBytes_sp (a : Nat) (bs : List Byte) : (s.storeBytes a bs).sp = s.sp := rfl
@[simp] theorem State.storeBytes_dt (a : Nat) (bs : List Byte) : (s.storeBytes a bs).dt = s.dt := rfl
@[simp] theorem State.storeBytes_st (a : Nat) (bs : List Byte) : (s.storeBytes a bs).st = s.st := rfl
@[simp] theorem State.storeBytes_key (a : Nat) (bs : List Byte) : (s.storeBytes a bs).key = s.key := rfl
@[simp] theorem State.storeBytes_fb (a : Nat) (bs : List Byte) : (s.storeBytes a bs).fb = s.fb := rfl
@[simp] theorem State.storeBytes_dirty (a : Nat) (bs : List Byte) : (s.storeBytes a bs).dirty = s.dirty := rfl
@[simp] theorem State.storeBytes_mem (a : Nat) (bs : List Byte) : (s.storeBytes a bs).mem = Memory.setBytes s.mem a bs := rfl
@[simp] theorem State.storeBytes_mode (a : Nat) (bs : List Byte) : (s.storeBytes a bs).mode = s.mode := rfl
@[simp] theorem State.storeBytes_waitx (a : Nat) (bs : List Byte) : (s.storeBytes a bs).waitx = s.waitx := rfl
@[simp] theorem State.storeBytes_fault (a : Nat) (bs : List Byte) : (s.storeBytes a bs).fault = s.fault := rfl
@[simp] theorem State.storeBytes_draws (a : Nat) (bs : List Byte) : (s.storeBytes a bs).draws = s.draws := rfl
@[simp] theorem State.storeBytes_getV (a : Nat) (bs : List Byte) (j : Nibble) : (s.storeBytes a bs).getV j = s.getV j := rfl
@[simp] theorem State.storeBytes_getKey (a : Nat) (bs : List Byte) (k' : Nibble) : (s.storeBytes a bs).getKey k' = s.getKey k' := rfl
@[simp] theorem State.storeBytes_pixel (a : Nat) (bs : List Byte) (row col : Nat) : (s.storeBytes a bs).pixel row col = s.pixel row col := rfl

/-! ### `raise` -/

@[simp] theorem State.raise_v (c : FaultCause) (w p : Word) (a : Nat) : (s.raise c w p a).v = s.v := rfl
@[simp] theorem State.raise_index (c : FaultCause) (w p : Word) (a : Nat) : (s.raise c w p a).index = s.index := rfl
@[simp] theorem State.raise_pc (c : FaultCause) (w p : Word) (a : Nat) : (s.raise c w p a).pc = s.pc := rfl
@[simp] theorem State.raise_stack (c : FaultCause) (w p : Word) (a : Nat) : (s.raise c w p a).stack = s.stack := rfl
@[simp] theorem State.raise_sp (c : FaultCause) (w p : Word) (a : Nat) : (s.raise c w p a).sp = s.sp := rfl
@[simp] theorem State.raise_dt (c : FaultCause) (w p : Word) (a : Nat) : (s.raise c w p a).dt = s.dt := rfl
@[simp] theorem State.raise_st (c : FaultCause) (w p : Word) (a : Nat) : (s.raise c w p a).st = s.st := rfl
@[simp] theorem State.raise_key (c : FaultCause) (w p : Word) (a : Nat) : (s.raise c w p a).key = s.key := rfl
@[simp] theorem State.raise_fb (c : FaultCause) (w p : Word) (a : Nat) : (s.raise c w p a).fb = s.fb := rfl
@[simp] theorem State.raise_dirty (c : FaultCause) (w p : Word) (a : Nat) : (s.raise c w p a).dirty = s.dirty := rfl
@[simp] theorem State.raise_mem (c : FaultCause) (w p : Word) (a : Nat) : (s.raise c w p a).mem = s.mem := rfl
@[simp] theorem State.raise_mode (c : FaultCause) (w p : Word) (a : Nat) : (s.raise c w p a).mode = .faulted := rfl
@[simp] theorem State.raise_waitx (c : FaultCause) (w p : Word) (a : Nat) : (s.raise c w p a).waitx = s.waitx := rfl
@[simp] theorem State.raise_fault (c : FaultCause) (w p : Word) (a : Nat) : (s.raise c w p a).fault = ⟨c, w, p, BitVec.ofNat 17 a⟩ := rfl
@[simp] theorem State.raise_draws (c : FaultCause) (w p : Word) (a : Nat) : (s.raise c w p a).draws = s.draws := rfl
@[simp] theorem State.raise_getV (c : FaultCause) (w p : Word) (a : Nat) (j : Nibble) : (s.raise c w p a).getV j = s.getV j := rfl
@[simp] theorem State.raise_getKey (c : FaultCause) (w p : Word) (a : Nat) (k' : Nibble) : (s.raise c w p a).getKey k' = s.getKey k' := rfl
@[simp] theorem State.raise_pixel (c : FaultCause) (w p : Word) (a : Nat) (row col : Nat) : (s.raise c w p a).pixel row col = s.pixel row col := rfl
@[simp] theorem State.raise_readByte (c : FaultCause) (w p : Word) (a : Nat) (a' : Nat) : (s.raise c w p a).readByte a' = s.readByte a' := rfl

/-! ### Reads of what was written -/

/-- A register read after a register write: the written one holds the byte, no other changes (R21). -/
@[simp] theorem State.getV_setV (x j : Nibble) (b : Byte) : (s.setV x b).getV j = if j = x then b else s.getV j := by
  unfold State.getV State.setV
  simp only [Vector.getElem_set, BitVec.toNat_inj, eq_comm]

@[simp] theorem State.getKey_setKey (k : Vector Bool 16) (j : Nibble) : (s.setKey k).getKey j = k[j.toNat] := rfl

@[simp] theorem State.setMem_readByte (m : Memory) (a : Nat) : (s.setMem m).readByte a = Memory.get m a := rfl

@[simp] theorem State.storeBytes_readByte (a : Nat) (bs : List Byte) (b : Nat) :
    (s.storeBytes a bs).readByte b = Memory.get (Memory.setBytes s.mem a bs) b := rfl

@[simp] theorem State.getV_setVs (w : Vector Byte 16) (j : Nibble) : (s.setVs w).getV j = w[j.toNat] := rfl

@[simp] theorem State.advance_instrAddr : s.advance.instrAddr = s.pc := by
  simp [State.instrAddr]

/-! ### The reset state (R290) -/

@[simp] theorem State.reset_v : State.reset.v = Vector.replicate 16 0 := rfl
@[simp] theorem State.reset_index : State.reset.index = 0 := rfl
@[simp] theorem State.reset_pc : State.reset.pc = 0x0200 := rfl
@[simp] theorem State.reset_stack : State.reset.stack = Vector.replicate 16 0 := rfl
@[simp] theorem State.reset_sp : State.reset.sp = 0 := rfl
@[simp] theorem State.reset_dt : State.reset.dt = 0 := rfl
@[simp] theorem State.reset_st : State.reset.st = 0 := rfl
@[simp] theorem State.reset_key : State.reset.key = Vector.replicate 16 false := rfl
@[simp] theorem State.reset_fb : State.reset.fb = Vector.replicate 32 0 := rfl
@[simp] theorem State.reset_dirty : State.reset.dirty = false := rfl
@[simp] theorem State.reset_mem : State.reset.mem = [] := rfl
@[simp] theorem State.reset_mode : State.reset.mode = .run := rfl
@[simp] theorem State.reset_waitx : State.reset.waitx = 0 := rfl
@[simp] theorem State.reset_fault : State.reset.fault = FaultRecord.clear := rfl
@[simp] theorem State.resetOp_v : s.resetOp.v = State.reset.v := rfl
@[simp] theorem State.resetOp_index : s.resetOp.index = State.reset.index := rfl
@[simp] theorem State.resetOp_pc : s.resetOp.pc = State.reset.pc := rfl
@[simp] theorem State.resetOp_stack : s.resetOp.stack = State.reset.stack := rfl
@[simp] theorem State.resetOp_sp : s.resetOp.sp = State.reset.sp := rfl
@[simp] theorem State.resetOp_dt : s.resetOp.dt = State.reset.dt := rfl
@[simp] theorem State.resetOp_st : s.resetOp.st = State.reset.st := rfl
@[simp] theorem State.resetOp_key : s.resetOp.key = State.reset.key := rfl
@[simp] theorem State.resetOp_fb : s.resetOp.fb = State.reset.fb := rfl
@[simp] theorem State.resetOp_dirty : s.resetOp.dirty = State.reset.dirty := rfl
@[simp] theorem State.resetOp_mem : s.resetOp.mem = State.reset.mem := rfl
@[simp] theorem State.resetOp_mode : s.resetOp.mode = State.reset.mode := rfl
@[simp] theorem State.resetOp_waitx : s.resetOp.waitx = State.reset.waitx := rfl
@[simp] theorem State.resetOp_fault : s.resetOp.fault = State.reset.fault := rfl
@[simp] theorem State.resetOp_draws : s.resetOp.draws = s.draws := rfl

end Sys2Proof.Machine
end

