-- ==== Sys2Proof/Laws/Ops.lean ====
section
/-! SUPPORT. One lemma per shared operation that says once everything it can do; later proofs cite these instead of
unfolding the operation. -/

namespace Sys2Proof.Machine

/-! ### Checks (R62 to R64) -/

theorem readFault_none_iff (a : Nat) : readFault a = none ↔ a < 4096 := by
  by_cases h : 4096 ≤ a
  · simp [readFault, Config.memSize, h]
  · simp [readFault, Config.memSize, h]; omega

theorem readFault_some_iff (a : Nat) (f : FaultCause × Nat) :
    readFault a = some f ↔ 4096 ≤ a ∧ f = (.memoryOutOfRange, a) := by
  by_cases h : 4096 ≤ a <;> simp [readFault, Config.memSize, h, eq_comm]

theorem writeFault_none_iff (a : Nat) : writeFault a = none ↔ 80 ≤ a ∧ a < 4096 := by
  by_cases h : 4096 ≤ a <;> by_cases h' : a < 80 <;>
    (simp [writeFault, Config.memSize, Config.fontBase, Config.fontSize, h, h']; try omega)

theorem writeFault_some_iff (a : Nat) (f : FaultCause × Nat) : writeFault a = some f ↔
    (4096 ≤ a ∧ f = (.memoryOutOfRange, a)) ∨ (a < 80 ∧ f = (.fontWriteFault, a)) := by
  by_cases h : 4096 ≤ a <;> by_cases h' : a < 80 <;>
    (simp [writeFault, Config.memSize, Config.fontBase, Config.fontSize, h, h', eq_comm]; try omega)

/-- No check fails exactly when each address passes. -/
theorem firstFault_none_iff (check : Nat → Option (FaultCause × Nat)) (base len : Nat) :
    firstFault check base len = none ↔ ∀ k, k < len → check (base + k) = none := by
  induction len generalizing base with
  | zero => simp [firstFault]
  | succ len ih =>
    unfold firstFault
    constructor
    · intro h k hk
      cases hb : check base with
      | some f => simp [hb] at h
      | none =>
        simp only [hb] at h
        cases k with
        | zero => exact hb
        | succ k =>
          have := (ih (base + 1)).mp h k (by omega)
          rwa [show base + 1 + k = base + (k + 1) by omega] at this
    · intro h
      have hb := h 0 (by omega)
      simp only [Nat.add_zero] at hb
      simp only [hb]
      refine (ih (base + 1)).mpr fun k hk => ?_
      have := h (k + 1) (by omega)
      rwa [show base + (k + 1) = base + 1 + k by omega] at this

/-- The fault found is the one of the lowest failing address (R64). -/
theorem firstFault_some {check : Nat → Option (FaultCause × Nat)} {base len : Nat} {f : FaultCause × Nat}
    (h : firstFault check base len = some f) :
    ∃ k, k < len ∧ check (base + k) = some f ∧ ∀ j, j < k → check (base + j) = none := by
  induction len generalizing base with
  | zero => simp [firstFault] at h
  | succ len ih =>
    unfold firstFault at h
    cases hb : check base with
    | some g =>
      simp only [hb, Option.some.injEq] at h
      exact ⟨0, by omega, by rw [← h]; exact hb, fun j hj => absurd hj (Nat.not_lt_zero j)⟩
    | none =>
      simp only [hb] at h
      obtain ⟨k, hk, hf, hlow⟩ := ih h
      refine ⟨k + 1, by omega, by rwa [show base + (k + 1) = base + 1 + k by omega], fun j hj => ?_⟩
      cases j with
      | zero => exact hb
      | succ j =>
        have := hlow j (by omega)
        rwa [show base + 1 + j = base + (j + 1) by omega] at this

/-! ### Faults in an instruction -/

/-- A raised fault is always entered: a next state with the record written and the mode `FAULTED` (R263). -/
theorem raiseIn_eq (i : Instr) (c : FaultCause) (a : Nat) (s : State) :
    raiseIn i c a s = .next (s.raise c (encode i) s.instrAddr a) := rfl

/-- A guarded instruction either has its whole effect, or enters the fault found and has none of it (R64). -/
theorem guarded_cases {i : Instr} {f : Option (FaultCause × Nat)} {effect : State → State} {s t : State}
    (h : guarded i f effect s = .next t) :
    (f = none ∧ t = effect s) ∨ ∃ c a, f = some (c, a) ∧ t = s.raise c (encode i) s.instrAddr a := by
  unfold guarded at h
  split at h
  · rename_i c a
    rw [raiseIn_eq] at h
    injection h with h
    exact .inr ⟨c, a, rfl, h.symm⟩
  · injection h with h
    exact .inl ⟨rfl, h.symm⟩

theorem guarded_none (i : Instr) (effect : State → State) (s : State) :
    guarded i none effect s = .next (effect s) := rfl

theorem guarded_some (i : Instr) (c : FaultCause) (a : Nat) (effect : State → State) (s : State) :
    guarded i (some (c, a)) effect s = .next (s.raise c (encode i) s.instrAddr a) := rfl

/-! ### The stack (R29) -/

theorem push?_eq_none_iff (s : State) (w : Word) : s.push? w = none ↔ s.sp.val = 16 := by
  unfold State.push?
  split <;> simp <;> omega

/-- A push writes the entry at SP and counts it; nothing else changes. -/
theorem push?_some {s t : State} {w : Word} (h : s.push? w = some t) :
    ∃ (hs : s.sp.val < 16), t = s.setStack (s.stack.set s.sp.val w) ⟨s.sp.val + 1, by omega⟩ := by
  unfold State.push? at h
  split at h
  · rename_i hs
    exact ⟨hs, (Option.some.inj h).symm⟩
  · simp at h

theorem pop?_eq_none_iff (s : State) : s.pop? = none ↔ s.sp.val = 0 := by
  unfold State.pop?
  split <;> simp <;> omega

/-- A pop uncounts the newest entry and answers it; the entry keeps its value. -/
theorem pop?_some {s t : State} {w : Word} (h : s.pop? = some (w, t)) :
    ∃ (hs : 0 < s.sp.val), w = s.stack[s.sp.val - 1] ∧ t = s.setStack s.stack ⟨s.sp.val - 1, by omega⟩ := by
  unfold State.pop? at h
  split at h
  · rename_i hs
    have := Option.some.inj h
    exact ⟨hs, (congrArg Prod.fst this).symm, (congrArg Prod.snd this).symm⟩
  · simp at h

/-! ### Skips (R148) -/

theorem skipIf_true (s : State) : skipIf true s = s.advance := rfl

theorem skipIf_false (s : State) : skipIf false s = s := rfl

/-- A skip changes nothing but PC, which it moves by 2 or not at all. -/
theorem skipIf_eq (b : Bool) (s : State) : skipIf b s = s.setPc (if b then s.pc + 2 else s.pc) := by
  cases b <;> rfl

/-! ### Flags (R22, R23) -/

theorem flagByte_toNat (b : Bool) : (flagByte b).toNat = if b then 1 else 0 := by
  cases b <;> rfl

/-- The flag is written last: VF holds it whatever x is, Vx holds the result unless x is 15, no other register changes. -/
theorem getV_setVThenFlag (s : State) (x j : Nibble) (r f : Byte) :
    (s.setVThenFlag x r f).getV j = if j = 15 then f else if j = x then r else s.getV j := by
  simp [State.setVThenFlag, VF]

theorem carryFlag_toNat (a b : Byte) : (carryFlag a b).toNat = if 255 < a.toNat + b.toNat then 1 else 0 := by
  have h : (sum9 a b)[8] = decide (255 < a.toNat + b.toNat) := by
    have e : (sum9 a b).toNat = a.toNat + b.toNat := by
      simp [sum9, BitVec.toNat_add, BitVec.toNat_setWidth]
      omega
    have : (sum9 a b)[8] = (sum9 a b).msb := by simp [BitVec.msb, BitVec.getMsbD]
    rw [this, BitVec.msb_eq_decide, e]
    congr 1
  rw [carryFlag, flagByte_toNat, h]
  simp

theorem sum9_low_toNat (a b : Byte) : ((sum9 a b).setWidth 8).toNat = (a.toNat + b.toNat) % 256 := by
  simp [sum9, BitVec.toNat_setWidth, BitVec.toNat_add]

theorem noBorrowFlag_toNat (m q : Byte) : (noBorrowFlag m q).toNat = if q.toNat ≤ m.toNat then 1 else 0 := by
  rw [noBorrowFlag, flagByte_toNat]
  simp [BitVec.le_def]

theorem lowBitFlag_toNat (a : Byte) : (lowBitFlag a).toNat = a.toNat % 2 := by
  revert a; decide

theorem highBitFlag_toNat (a : Byte) : (highBitFlag a).toNat = a.toNat / 128 := by
  revert a; decide

/-! ### Operands -/

theorem address_toNat (nnn : Addr12) : (address nnn).toNat = nnn.toNat := by
  have := nnn.isLt
  simp [address, BitVec.toNat_setWidth]
  omega

theorem widen_toNat (b : Byte) : (widen b).toNat = b.toNat := by
  have := b.isLt
  simp [widen, BitVec.toNat_setWidth]
  omega

theorem glyphAddr_toNat (b : Byte) : (glyphAddr b).toNat = 5 * b.toNat := by
  revert b; decide

theorem keySelect_toNat (b : Byte) : (keySelect b).toNat = b.toNat % 16 := by
  revert b; decide

theorem getV_loadRun (s : State) (x j : Nibble) (base : Nat) :
    (s.loadRun x base)[j.toNat] = if j.toNat ≤ x.toNat then s.readByte (base + j.toNat) else s.getV j := by
  simp [State.loadRun, runLength, State.getV]

theorem length_registerRun (s : State) (x : Nibble) : (s.registerRun x).length = x.toNat + 1 := by
  have := x.isLt
  simp [State.registerRun, runLength]
  omega

theorem getElem?_registerRun (s : State) (x j : Nibble) (h : j.toNat ≤ x.toNat) :
    (s.registerRun x)[j.toNat]? = some (s.getV j) := by
  have := j.isLt
  simp [State.registerRun, runLength, h, State.getV]

theorem length_decimalDigits (b : Byte) : (decimalDigits b).length = 3 := rfl

theorem decimalDigits_toNat (b : Byte) :
    (decimalDigits b).map BitVec.toNat = [b.toNat / 100, b.toNat / 10 % 10, b.toNat % 10] := by
  revert b; decide

theorem length_readBytes (s : State) (base len : Nat) : (s.readBytes base len).length = len := by
  simp [State.readBytes]

theorem getElem?_readBytes (s : State) (base len k : Nat) :
    (s.readBytes base len)[k]? = if k < len then some (s.readByte (base + k)) else none := by
  simp only [State.readBytes, List.getElem?_map]
  split
  · rename_i h; simp [h]
  · rename_i h; simp [Nat.le_of_not_lt h]

/-! ### The random byte (R243, R246) -/

/-- Whatever the byte drawn, only bits of the mask can be set in the result. -/
theorem randomMasked_getV (r : Byte) (x : Nibble) (kk : Byte) (s : State) :
    (randomMasked r x kk s).getV x = r &&& kk := by
  simp [randomMasked]

/-! ### Fetch (R123) -/

theorem fetchFault_none_iff (s : State) : s.fetchFault = none ↔ s.pc.toNat ≤ 0xFFE := by
  rw [State.fetchFault, firstFault_none_iff]
  constructor
  · intro h
    have := (readFault_none_iff _).mp (h 1 (by omega))
    omega
  · intro h k hk
    rw [readFault_none_iff]
    omega

theorem fetchFault_some_iff (s : State) (f : FaultCause × Nat) :
    s.fetchFault = some f ↔ 0xFFF ≤ s.pc.toNat ∧ f = (.memoryOutOfRange, max s.pc.toNat 0x1000) := by
  simp only [State.fetchFault, firstFault, readFault, Config.memSize]
  by_cases h1 : 4096 ≤ s.pc.toNat
  · simp [h1, eq_comm]; intro; omega
  · by_cases h2 : 4096 ≤ s.pc.toNat + 1
    · have : s.pc.toNat = 4095 := by omega
      simp [this, eq_comm]
    · simp [h1, h2]; omega

/-! ### Host operations -/

/-- A load succeeds exactly when the program fits, and then writes its bytes at 0x200 and nothing else (R293). -/
theorem loadProgram?_some_iff (s t : State) (bytes : List Byte) :
    s.loadProgram? bytes = some t ↔ bytes.length ≤ 3584 ∧ t = s.storeBytes 0x200 bytes := by
  by_cases h : bytes.length ≤ 3584 <;> simp [State.loadProgram?, Config.romMax, Config.progBase, h, eq_comm]

theorem loadProgram?_none_iff (s : State) (bytes : List Byte) : s.loadProgram? bytes = none ↔ 3584 < bytes.length := by
  by_cases h : bytes.length ≤ 3584 <;> (simp [State.loadProgram?, Config.romMax, h]; try omega)

theorem countDown_toNat (t : Byte) : (countDown t).toNat = t.toNat - 1 := by
  revert t; decide

/-- A key press in a wait writes the awaited register and ends the wait; outside a wait it changes nothing (R227). -/
theorem keyPress_eq (s : State) (k : Nibble) :
    s.keyPress k = if s.mode = .waitkey then (s.setV s.waitx (k.setWidth 8)).setMode .run else s := by
  unfold State.keyPress
  cases h : s.mode <;> simp

end Sys2Proof.Machine
end

