-- ==== Sys2Proof/Laws/Display.lean ====
section
/-! SUPPORT. What drawing a sprite does to the framebuffer, row by row and pixel by pixel (spec/44_display.md R201 to R204). -/

namespace Sys2Proof.Machine

/-- Bit 7 of a sprite byte at column `px`, bit 0 at `px + 7`; columns right of 63 do not exist (R203, R206). -/
theorem spriteRow_getMsbD (b : Byte) (px col : Nat) : (spriteRow b px).getMsbD col =
    (decide (col < 64) && decide (px ≤ col) && decide (col < px + 8) && b.getLsbD (7 - (col - px))) := by
  unfold spriteRow
  simp only [BitVec.getMsbD]
  by_cases h1 : col < 64 <;> by_cases h2 : px ≤ col <;> by_cases h3 : col < px + 8 <;> simp [h1, h2, h3]
  all_goals grind

/-- Each row the sprite covers is XORed with its byte, every other row is as before (R201, R203). -/
theorem drawRows_row (bs : List Byte) (px : Nat) : ∀ (row : Nat) (fb : Vector (BitVec 64) 32) (r : Nat) (hr : r < 32),
    (drawRows bs px row fb).1[r] =
      if h : row ≤ r ∧ r - row < bs.length then fb[r] ^^^ spriteRow bs[r - row] px else fb[r] := by
  induction bs with
  | nil => intro row fb r hr; simp [drawRows]
  | cons b bs ih =>
    intro row fb r hr
    unfold drawRows
    by_cases hrow : row < 32
    · simp only [hrow, dite_true]
      rw [ih]
      by_cases h1 : row = r
      · subst h1
        simp
      · by_cases h2 : row + 1 ≤ r
        · obtain ⟨d, rfl⟩ : ∃ d, r = row + 1 + d := ⟨r - (row + 1), by omega⟩
          have keep : ∀ w, (fb.set row w hrow)[row + 1 + d] = fb[row + 1 + d] := fun w =>
            Vector.getElem_set_ne hrow hr (by omega)
          simp [show row + 1 + d - row = d + 1 by omega, show row + 1 + d - (row + 1) = d by omega,
            show row ≤ row + 1 + d by omega, keep]
        · simp [h2, show ¬ row ≤ r by omega, h1]
    · simp only [hrow, dite_false]
      simp [show ¬ row ≤ r by omega]

/-- A collision: some visible row of the sprite meets a lit pixel (R204). -/
theorem drawRows_hit (bs : List Byte) (px : Nat) : ∀ (row : Nat) (fb : Vector (BitVec 64) 32),
    (drawRows bs px row fb).2 = true ↔
      ∃ k, ∃ (hk : k < bs.length) (hr : row + k < 32), fb[row + k] &&& spriteRow bs[k] px ≠ 0 := by
  induction bs with
  | nil => intro row fb; simp [drawRows]
  | cons b bs ih =>
    intro row fb
    unfold drawRows
    by_cases hrow : row < 32
    · simp only [hrow, dite_true, Bool.or_eq_true, ih, bne_iff_ne]
      constructor
      · rintro (⟨k, hk, hr, h⟩ | h)
        · refine ⟨k + 1, by simpa using hk, by omega, ?_⟩
          simpa [show row + 1 + k = row + (k + 1) by omega] using h
        · exact ⟨0, by simp, by omega, by simpa using h⟩
      · rintro ⟨k, hk, hr, h⟩
        cases k with
        | zero => exact .inr (by simpa using h)
        | succ k =>
          refine .inl ⟨k, by simpa using hk, by omega, ?_⟩
          simpa [show row + 1 + k = row + (k + 1) by omega] using h
    · simp only [hrow, dite_false]
      constructor
      · intro h; simp at h
      · rintro ⟨k, hk, hr, h⟩; omega

end Sys2Proof.Machine
end

