-- ==== Sys2Proof/Laws/PerInstr.lean ====
section
/-! SUPPORT. Statements made of every instruction, one lemma a constructor.
`WellFormed`: the raw form of every instruction passes the check of WellFormed.lean (a row's mnemonic, its number of
operands, each within its field). `TableRow`: the encoded word fits the row of the opcode table (spec/30_encoding.md
R96) that bears the instruction's mnemonic. -/

namespace Sys2Proof.Laws

/-- Every operand value of every constructor is one that the row's fields admit (R93). -/
def WellFormed.Statement (i : Instr) : Prop := i.WellFormed

/-- The word of the instruction matches its own row of the opcode table (R94, R96). -/
def TableRow.Statement (i : Instr) : Prop := ∃ r ∈ opcodeTable, r.mnemonic = i.raw.mnemonic ∧ r.fits (encode i) = true

theorem WellFormed.op00E0 : WellFormed.Statement (.op00E0) := by
  simp [WellFormed.Statement, Instr.WellFormed, Instr.raw, RawInstr.wellFormed, formatOf?, allFormats, Format.mnemonics,
    operandsFit, Format.fieldWidths]

theorem WellFormed.op00EE : WellFormed.Statement (.op00EE) := by
  simp [WellFormed.Statement, Instr.WellFormed, Instr.raw, RawInstr.wellFormed, formatOf?, allFormats, Format.mnemonics,
    operandsFit, Format.fieldWidths]

theorem WellFormed.op1nnn (nnn : Addr12) : WellFormed.Statement (.op1nnn nnn) := by
  simp [WellFormed.Statement, Instr.WellFormed, Instr.raw, RawInstr.wellFormed, formatOf?, allFormats, Format.mnemonics,
    operandsFit, Format.fieldWidths, nnn.isLt]

theorem WellFormed.op2nnn (nnn : Addr12) : WellFormed.Statement (.op2nnn nnn) := by
  simp [WellFormed.Statement, Instr.WellFormed, Instr.raw, RawInstr.wellFormed, formatOf?, allFormats, Format.mnemonics,
    operandsFit, Format.fieldWidths, nnn.isLt]

theorem WellFormed.op3xkk (x : Nibble) (kk : Byte) : WellFormed.Statement (.op3xkk x kk) := by
  simp [WellFormed.Statement, Instr.WellFormed, Instr.raw, RawInstr.wellFormed, formatOf?, allFormats, Format.mnemonics,
    operandsFit, Format.fieldWidths, x.isLt, kk.isLt]

theorem WellFormed.op4xkk (x : Nibble) (kk : Byte) : WellFormed.Statement (.op4xkk x kk) := by
  simp [WellFormed.Statement, Instr.WellFormed, Instr.raw, RawInstr.wellFormed, formatOf?, allFormats, Format.mnemonics,
    operandsFit, Format.fieldWidths, x.isLt, kk.isLt]

theorem WellFormed.op5xy0 (x y : Nibble) : WellFormed.Statement (.op5xy0 x y) := by
  simp [WellFormed.Statement, Instr.WellFormed, Instr.raw, RawInstr.wellFormed, formatOf?, allFormats, Format.mnemonics,
    operandsFit, Format.fieldWidths, x.isLt, y.isLt]

theorem WellFormed.op6xkk (x : Nibble) (kk : Byte) : WellFormed.Statement (.op6xkk x kk) := by
  simp [WellFormed.Statement, Instr.WellFormed, Instr.raw, RawInstr.wellFormed, formatOf?, allFormats, Format.mnemonics,
    operandsFit, Format.fieldWidths, x.isLt, kk.isLt]

theorem WellFormed.op7xkk (x : Nibble) (kk : Byte) : WellFormed.Statement (.op7xkk x kk) := by
  simp [WellFormed.Statement, Instr.WellFormed, Instr.raw, RawInstr.wellFormed, formatOf?, allFormats, Format.mnemonics,
    operandsFit, Format.fieldWidths, x.isLt, kk.isLt]

theorem WellFormed.op8xy0 (x y : Nibble) : WellFormed.Statement (.op8xy0 x y) := by
  simp [WellFormed.Statement, Instr.WellFormed, Instr.raw, RawInstr.wellFormed, formatOf?, allFormats, Format.mnemonics,
    operandsFit, Format.fieldWidths, x.isLt, y.isLt]

theorem WellFormed.op8xy1 (x y : Nibble) : WellFormed.Statement (.op8xy1 x y) := by
  simp [WellFormed.Statement, Instr.WellFormed, Instr.raw, RawInstr.wellFormed, formatOf?, allFormats, Format.mnemonics,
    operandsFit, Format.fieldWidths, x.isLt, y.isLt]

theorem WellFormed.op8xy2 (x y : Nibble) : WellFormed.Statement (.op8xy2 x y) := by
  simp [WellFormed.Statement, Instr.WellFormed, Instr.raw, RawInstr.wellFormed, formatOf?, allFormats, Format.mnemonics,
    operandsFit, Format.fieldWidths, x.isLt, y.isLt]

theorem WellFormed.op8xy3 (x y : Nibble) : WellFormed.Statement (.op8xy3 x y) := by
  simp [WellFormed.Statement, Instr.WellFormed, Instr.raw, RawInstr.wellFormed, formatOf?, allFormats, Format.mnemonics,
    operandsFit, Format.fieldWidths, x.isLt, y.isLt]

theorem WellFormed.op8xy4 (x y : Nibble) : WellFormed.Statement (.op8xy4 x y) := by
  simp [WellFormed.Statement, Instr.WellFormed, Instr.raw, RawInstr.wellFormed, formatOf?, allFormats, Format.mnemonics,
    operandsFit, Format.fieldWidths, x.isLt, y.isLt]

theorem WellFormed.op8xy5 (x y : Nibble) : WellFormed.Statement (.op8xy5 x y) := by
  simp [WellFormed.Statement, Instr.WellFormed, Instr.raw, RawInstr.wellFormed, formatOf?, allFormats, Format.mnemonics,
    operandsFit, Format.fieldWidths, x.isLt, y.isLt]

theorem WellFormed.op8xy6 (x y : Nibble) : WellFormed.Statement (.op8xy6 x y) := by
  simp [WellFormed.Statement, Instr.WellFormed, Instr.raw, RawInstr.wellFormed, formatOf?, allFormats, Format.mnemonics,
    operandsFit, Format.fieldWidths, x.isLt, y.isLt]

theorem WellFormed.op8xy7 (x y : Nibble) : WellFormed.Statement (.op8xy7 x y) := by
  simp [WellFormed.Statement, Instr.WellFormed, Instr.raw, RawInstr.wellFormed, formatOf?, allFormats, Format.mnemonics,
    operandsFit, Format.fieldWidths, x.isLt, y.isLt]

theorem WellFormed.op8xyE (x y : Nibble) : WellFormed.Statement (.op8xyE x y) := by
  simp [WellFormed.Statement, Instr.WellFormed, Instr.raw, RawInstr.wellFormed, formatOf?, allFormats, Format.mnemonics,
    operandsFit, Format.fieldWidths, x.isLt, y.isLt]

theorem WellFormed.op9xy0 (x y : Nibble) : WellFormed.Statement (.op9xy0 x y) := by
  simp [WellFormed.Statement, Instr.WellFormed, Instr.raw, RawInstr.wellFormed, formatOf?, allFormats, Format.mnemonics,
    operandsFit, Format.fieldWidths, x.isLt, y.isLt]

theorem WellFormed.opAnnn (nnn : Addr12) : WellFormed.Statement (.opAnnn nnn) := by
  simp [WellFormed.Statement, Instr.WellFormed, Instr.raw, RawInstr.wellFormed, formatOf?, allFormats, Format.mnemonics,
    operandsFit, Format.fieldWidths, nnn.isLt]

theorem WellFormed.opBnnn (nnn : Addr12) : WellFormed.Statement (.opBnnn nnn) := by
  simp [WellFormed.Statement, Instr.WellFormed, Instr.raw, RawInstr.wellFormed, formatOf?, allFormats, Format.mnemonics,
    operandsFit, Format.fieldWidths, nnn.isLt]

theorem WellFormed.opCxkk (x : Nibble) (kk : Byte) : WellFormed.Statement (.opCxkk x kk) := by
  simp [WellFormed.Statement, Instr.WellFormed, Instr.raw, RawInstr.wellFormed, formatOf?, allFormats, Format.mnemonics,
    operandsFit, Format.fieldWidths, x.isLt, kk.isLt]

theorem WellFormed.opDxyn (x y n : Nibble) : WellFormed.Statement (.opDxyn x y n) := by
  simp [WellFormed.Statement, Instr.WellFormed, Instr.raw, RawInstr.wellFormed, formatOf?, allFormats, Format.mnemonics,
    operandsFit, Format.fieldWidths, x.isLt, y.isLt, n.isLt]

theorem WellFormed.opEx9E (x : Nibble) : WellFormed.Statement (.opEx9E x) := by
  simp [WellFormed.Statement, Instr.WellFormed, Instr.raw, RawInstr.wellFormed, formatOf?, allFormats, Format.mnemonics,
    operandsFit, Format.fieldWidths, x.isLt]

theorem WellFormed.opExA1 (x : Nibble) : WellFormed.Statement (.opExA1 x) := by
  simp [WellFormed.Statement, Instr.WellFormed, Instr.raw, RawInstr.wellFormed, formatOf?, allFormats, Format.mnemonics,
    operandsFit, Format.fieldWidths, x.isLt]

theorem WellFormed.opFx07 (x : Nibble) : WellFormed.Statement (.opFx07 x) := by
  simp [WellFormed.Statement, Instr.WellFormed, Instr.raw, RawInstr.wellFormed, formatOf?, allFormats, Format.mnemonics,
    operandsFit, Format.fieldWidths, x.isLt]

theorem WellFormed.opFx0A (x : Nibble) : WellFormed.Statement (.opFx0A x) := by
  simp [WellFormed.Statement, Instr.WellFormed, Instr.raw, RawInstr.wellFormed, formatOf?, allFormats, Format.mnemonics,
    operandsFit, Format.fieldWidths, x.isLt]

theorem WellFormed.opFx15 (x : Nibble) : WellFormed.Statement (.opFx15 x) := by
  simp [WellFormed.Statement, Instr.WellFormed, Instr.raw, RawInstr.wellFormed, formatOf?, allFormats, Format.mnemonics,
    operandsFit, Format.fieldWidths, x.isLt]

theorem WellFormed.opFx18 (x : Nibble) : WellFormed.Statement (.opFx18 x) := by
  simp [WellFormed.Statement, Instr.WellFormed, Instr.raw, RawInstr.wellFormed, formatOf?, allFormats, Format.mnemonics,
    operandsFit, Format.fieldWidths, x.isLt]

theorem WellFormed.opFx1E (x : Nibble) : WellFormed.Statement (.opFx1E x) := by
  simp [WellFormed.Statement, Instr.WellFormed, Instr.raw, RawInstr.wellFormed, formatOf?, allFormats, Format.mnemonics,
    operandsFit, Format.fieldWidths, x.isLt]

theorem WellFormed.opFx29 (x : Nibble) : WellFormed.Statement (.opFx29 x) := by
  simp [WellFormed.Statement, Instr.WellFormed, Instr.raw, RawInstr.wellFormed, formatOf?, allFormats, Format.mnemonics,
    operandsFit, Format.fieldWidths, x.isLt]

theorem WellFormed.opFx33 (x : Nibble) : WellFormed.Statement (.opFx33 x) := by
  simp [WellFormed.Statement, Instr.WellFormed, Instr.raw, RawInstr.wellFormed, formatOf?, allFormats, Format.mnemonics,
    operandsFit, Format.fieldWidths, x.isLt]

theorem WellFormed.opFx55 (x : Nibble) : WellFormed.Statement (.opFx55 x) := by
  simp [WellFormed.Statement, Instr.WellFormed, Instr.raw, RawInstr.wellFormed, formatOf?, allFormats, Format.mnemonics,
    operandsFit, Format.fieldWidths, x.isLt]

theorem WellFormed.opFx65 (x : Nibble) : WellFormed.Statement (.opFx65 x) := by
  simp [WellFormed.Statement, Instr.WellFormed, Instr.raw, RawInstr.wellFormed, formatOf?, allFormats, Format.mnemonics,
    operandsFit, Format.fieldWidths, x.isLt]

theorem TableRow.op00E0 : TableRow.Statement (.op00E0) := by
  refine ⟨⟨"00E0", 0x00E0, 0xFFFF⟩, by decide, rfl, ?_⟩
  decide

theorem TableRow.op00EE : TableRow.Statement (.op00EE) := by
  refine ⟨⟨"00EE", 0x00EE, 0xFFFF⟩, by decide, rfl, ?_⟩
  decide

theorem TableRow.op1nnn (nnn : Addr12) : TableRow.Statement (.op1nnn nnn) := by
  refine ⟨⟨"1nnn", 0x1000, 0xF000⟩, by decide, rfl, ?_⟩
  have h := mask_op_nnn 0x1#4 nnn
  exact beq_iff_eq.mpr (h.trans (by decide))

theorem TableRow.op2nnn (nnn : Addr12) : TableRow.Statement (.op2nnn nnn) := by
  refine ⟨⟨"2nnn", 0x2000, 0xF000⟩, by decide, rfl, ?_⟩
  have h := mask_op_nnn 0x2#4 nnn
  exact beq_iff_eq.mpr (h.trans (by decide))

theorem TableRow.op3xkk (x : Nibble) (kk : Byte) : TableRow.Statement (.op3xkk x kk) := by
  refine ⟨⟨"3xkk", 0x3000, 0xF000⟩, by decide, rfl, ?_⟩
  have h := mask_op_xkk 0x3#4 x kk
  exact beq_iff_eq.mpr (h.trans (by decide))

theorem TableRow.op4xkk (x : Nibble) (kk : Byte) : TableRow.Statement (.op4xkk x kk) := by
  refine ⟨⟨"4xkk", 0x4000, 0xF000⟩, by decide, rfl, ?_⟩
  have h := mask_op_xkk 0x4#4 x kk
  exact beq_iff_eq.mpr (h.trans (by decide))

theorem TableRow.op5xy0 (x y : Nibble) : TableRow.Statement (.op5xy0 x y) := by
  refine ⟨⟨"5xy0", 0x5000, 0xF00F⟩, by decide, rfl, ?_⟩
  have h := mask_xy 0x5#4 x y 0x0#4
  exact beq_iff_eq.mpr (h.trans (by decide))

theorem TableRow.op6xkk (x : Nibble) (kk : Byte) : TableRow.Statement (.op6xkk x kk) := by
  refine ⟨⟨"6xkk", 0x6000, 0xF000⟩, by decide, rfl, ?_⟩
  have h := mask_op_xkk 0x6#4 x kk
  exact beq_iff_eq.mpr (h.trans (by decide))

theorem TableRow.op7xkk (x : Nibble) (kk : Byte) : TableRow.Statement (.op7xkk x kk) := by
  refine ⟨⟨"7xkk", 0x7000, 0xF000⟩, by decide, rfl, ?_⟩
  have h := mask_op_xkk 0x7#4 x kk
  exact beq_iff_eq.mpr (h.trans (by decide))

theorem TableRow.op8xy0 (x y : Nibble) : TableRow.Statement (.op8xy0 x y) := by
  refine ⟨⟨"8xy0", 0x8000, 0xF00F⟩, by decide, rfl, ?_⟩
  have h := mask_xy 0x8#4 x y 0x0#4
  exact beq_iff_eq.mpr (h.trans (by decide))

theorem TableRow.op8xy1 (x y : Nibble) : TableRow.Statement (.op8xy1 x y) := by
  refine ⟨⟨"8xy1", 0x8001, 0xF00F⟩, by decide, rfl, ?_⟩
  have h := mask_xy 0x8#4 x y 0x1#4
  exact beq_iff_eq.mpr (h.trans (by decide))

theorem TableRow.op8xy2 (x y : Nibble) : TableRow.Statement (.op8xy2 x y) := by
  refine ⟨⟨"8xy2", 0x8002, 0xF00F⟩, by decide, rfl, ?_⟩
  have h := mask_xy 0x8#4 x y 0x2#4
  exact beq_iff_eq.mpr (h.trans (by decide))

theorem TableRow.op8xy3 (x y : Nibble) : TableRow.Statement (.op8xy3 x y) := by
  refine ⟨⟨"8xy3", 0x8003, 0xF00F⟩, by decide, rfl, ?_⟩
  have h := mask_xy 0x8#4 x y 0x3#4
  exact beq_iff_eq.mpr (h.trans (by decide))

theorem TableRow.op8xy4 (x y : Nibble) : TableRow.Statement (.op8xy4 x y) := by
  refine ⟨⟨"8xy4", 0x8004, 0xF00F⟩, by decide, rfl, ?_⟩
  have h := mask_xy 0x8#4 x y 0x4#4
  exact beq_iff_eq.mpr (h.trans (by decide))

theorem TableRow.op8xy5 (x y : Nibble) : TableRow.Statement (.op8xy5 x y) := by
  refine ⟨⟨"8xy5", 0x8005, 0xF00F⟩, by decide, rfl, ?_⟩
  have h := mask_xy 0x8#4 x y 0x5#4
  exact beq_iff_eq.mpr (h.trans (by decide))

theorem TableRow.op8xy6 (x y : Nibble) : TableRow.Statement (.op8xy6 x y) := by
  refine ⟨⟨"8xy6", 0x8006, 0xF00F⟩, by decide, rfl, ?_⟩
  have h := mask_xy 0x8#4 x y 0x6#4
  exact beq_iff_eq.mpr (h.trans (by decide))

theorem TableRow.op8xy7 (x y : Nibble) : TableRow.Statement (.op8xy7 x y) := by
  refine ⟨⟨"8xy7", 0x8007, 0xF00F⟩, by decide, rfl, ?_⟩
  have h := mask_xy 0x8#4 x y 0x7#4
  exact beq_iff_eq.mpr (h.trans (by decide))

theorem TableRow.op8xyE (x y : Nibble) : TableRow.Statement (.op8xyE x y) := by
  refine ⟨⟨"8xyE", 0x800E, 0xF00F⟩, by decide, rfl, ?_⟩
  have h := mask_xy 0x8#4 x y 0xE#4
  exact beq_iff_eq.mpr (h.trans (by decide))

theorem TableRow.op9xy0 (x y : Nibble) : TableRow.Statement (.op9xy0 x y) := by
  refine ⟨⟨"9xy0", 0x9000, 0xF00F⟩, by decide, rfl, ?_⟩
  have h := mask_xy 0x9#4 x y 0x0#4
  exact beq_iff_eq.mpr (h.trans (by decide))

theorem TableRow.opAnnn (nnn : Addr12) : TableRow.Statement (.opAnnn nnn) := by
  refine ⟨⟨"Annn", 0xA000, 0xF000⟩, by decide, rfl, ?_⟩
  have h := mask_op_nnn 0xA#4 nnn
  exact beq_iff_eq.mpr (h.trans (by decide))

theorem TableRow.opBnnn (nnn : Addr12) : TableRow.Statement (.opBnnn nnn) := by
  refine ⟨⟨"Bnnn", 0xB000, 0xF000⟩, by decide, rfl, ?_⟩
  have h := mask_op_nnn 0xB#4 nnn
  exact beq_iff_eq.mpr (h.trans (by decide))

theorem TableRow.opCxkk (x : Nibble) (kk : Byte) : TableRow.Statement (.opCxkk x kk) := by
  refine ⟨⟨"Cxkk", 0xC000, 0xF000⟩, by decide, rfl, ?_⟩
  have h := mask_op_xkk 0xC#4 x kk
  exact beq_iff_eq.mpr (h.trans (by decide))

theorem TableRow.opDxyn (x y n : Nibble) : TableRow.Statement (.opDxyn x y n) := by
  refine ⟨⟨"Dxyn", 0xD000, 0xF000⟩, by decide, rfl, ?_⟩
  have h := mask_op_nibbles 0xD#4 x y n
  exact beq_iff_eq.mpr (h.trans (by decide))

theorem TableRow.opEx9E (x : Nibble) : TableRow.Statement (.opEx9E x) := by
  refine ⟨⟨"Ex9E", 0xE09E, 0xF0FF⟩, by decide, rfl, ?_⟩
  have h := mask_x 0xE#4 x 0x9E#8
  exact beq_iff_eq.mpr (h.trans (by decide))

theorem TableRow.opExA1 (x : Nibble) : TableRow.Statement (.opExA1 x) := by
  refine ⟨⟨"ExA1", 0xE0A1, 0xF0FF⟩, by decide, rfl, ?_⟩
  have h := mask_x 0xE#4 x 0xA1#8
  exact beq_iff_eq.mpr (h.trans (by decide))

theorem TableRow.opFx07 (x : Nibble) : TableRow.Statement (.opFx07 x) := by
  refine ⟨⟨"Fx07", 0xF007, 0xF0FF⟩, by decide, rfl, ?_⟩
  have h := mask_x 0xF#4 x 0x07#8
  exact beq_iff_eq.mpr (h.trans (by decide))

theorem TableRow.opFx0A (x : Nibble) : TableRow.Statement (.opFx0A x) := by
  refine ⟨⟨"Fx0A", 0xF00A, 0xF0FF⟩, by decide, rfl, ?_⟩
  have h := mask_x 0xF#4 x 0x0A#8
  exact beq_iff_eq.mpr (h.trans (by decide))

theorem TableRow.opFx15 (x : Nibble) : TableRow.Statement (.opFx15 x) := by
  refine ⟨⟨"Fx15", 0xF015, 0xF0FF⟩, by decide, rfl, ?_⟩
  have h := mask_x 0xF#4 x 0x15#8
  exact beq_iff_eq.mpr (h.trans (by decide))

theorem TableRow.opFx18 (x : Nibble) : TableRow.Statement (.opFx18 x) := by
  refine ⟨⟨"Fx18", 0xF018, 0xF0FF⟩, by decide, rfl, ?_⟩
  have h := mask_x 0xF#4 x 0x18#8
  exact beq_iff_eq.mpr (h.trans (by decide))

theorem TableRow.opFx1E (x : Nibble) : TableRow.Statement (.opFx1E x) := by
  refine ⟨⟨"Fx1E", 0xF01E, 0xF0FF⟩, by decide, rfl, ?_⟩
  have h := mask_x 0xF#4 x 0x1E#8
  exact beq_iff_eq.mpr (h.trans (by decide))

theorem TableRow.opFx29 (x : Nibble) : TableRow.Statement (.opFx29 x) := by
  refine ⟨⟨"Fx29", 0xF029, 0xF0FF⟩, by decide, rfl, ?_⟩
  have h := mask_x 0xF#4 x 0x29#8
  exact beq_iff_eq.mpr (h.trans (by decide))

theorem TableRow.opFx33 (x : Nibble) : TableRow.Statement (.opFx33 x) := by
  refine ⟨⟨"Fx33", 0xF033, 0xF0FF⟩, by decide, rfl, ?_⟩
  have h := mask_x 0xF#4 x 0x33#8
  exact beq_iff_eq.mpr (h.trans (by decide))

theorem TableRow.opFx55 (x : Nibble) : TableRow.Statement (.opFx55 x) := by
  refine ⟨⟨"Fx55", 0xF055, 0xF0FF⟩, by decide, rfl, ?_⟩
  have h := mask_x 0xF#4 x 0x55#8
  exact beq_iff_eq.mpr (h.trans (by decide))

theorem TableRow.opFx65 (x : Nibble) : TableRow.Statement (.opFx65 x) := by
  refine ⟨⟨"Fx65", 0xF065, 0xF0FF⟩, by decide, rfl, ?_⟩
  have h := mask_x 0xF#4 x 0x65#8
  exact beq_iff_eq.mpr (h.trans (by decide))

end Sys2Proof.Laws
end

