-- ==== Sys2Proof/Laws/Step.lean ====
section
/-! SUPPORT. What a step can do, said once (spec/40_fetch_decode_dispatch.md R120 to R126). -/

namespace Sys2Proof.Machine

/-- In a wait or after a fault a step changes nothing (R121, R122). -/
theorem step_of_not_run {s : State} (h : s.mode ≠ .run) : step s = .next s := by
  unfold step
  cases hm : s.mode <;> simp_all

/-- A fetch fault is entered with PC unchanged (R123). -/
theorem step_of_fetchFault {s : State} {c : FaultCause} {a : Nat} (h : s.mode = .run) (hf : s.fetchFault = some (c, a)) :
    step s = .next (s.raiseAtFetch c a) := by
  simp [step, h, hf]

/-- A fetched word that is an instruction is executed on the advanced PC (R124, R126). -/
theorem step_of_decoded {s : State} {i : Instr} (h : s.mode = .run) (hf : s.fetchFault = none)
    (hd : decodeWord s.fetchWord = .ok i) : step s = exec i s.advance := by
  simp [step, h, hf, hd]

/-- A fetched word that is no instruction enters `UnknownOpcode` with PC advanced (R126). -/
theorem step_of_unknown {s : State} {e : DecodeError} (h : s.mode = .run) (hf : s.fetchFault = none)
    (hd : decodeWord s.fetchWord = .error e) : step s = .next (s.advance.raiseUnknown s.fetchWord) := by
  simp [step, h, hf, hd]

/-- Everything a step can do: stay, enter a fetch fault, enter `UnknownOpcode`, or execute one instruction. -/
theorem step_cases (s : State) :
    (s.mode ≠ .run ∧ step s = .next s) ∨
    (s.mode = .run ∧ ∃ c a, s.fetchFault = some (c, a) ∧ step s = .next (s.raiseAtFetch c a)) ∨
    (s.mode = .run ∧ s.fetchFault = none ∧ (∃ e, decodeWord s.fetchWord = .error e) ∧
      step s = .next (s.advance.raiseUnknown s.fetchWord)) ∨
    (s.mode = .run ∧ s.fetchFault = none ∧ ∃ i, decodeWord s.fetchWord = .ok i ∧ step s = exec i s.advance) := by
  by_cases hm : s.mode = .run
  · right
    cases hf : s.fetchFault with
    | some f => exact .inl ⟨hm, f.1, f.2, rfl, step_of_fetchFault hm hf⟩
    | none =>
      right
      cases hd : decodeWord s.fetchWord with
      | error e => exact .inl ⟨hm, rfl, ⟨e, rfl⟩, step_of_unknown hm hf hd⟩
      | ok i => exact .inr ⟨hm, rfl, i, rfl, step_of_decoded hm hf hd⟩
  · exact .inl ⟨hm, step_of_not_run hm⟩

end Sys2Proof.Machine
end

