-- ==== Sys2Proof/Tests/Slice0.lean ====
section
/-! SUPPORT. The model's own tests: the well-formedness smoke, words written out bit by bit from the patterns of
spec/30_encoding.md R96, one-step tests whose expected values are those of spec/95_test_vectors.md (each names its
vector), and for every obligation with hypotheses a witness that meets them. -/

namespace Sys2Proof.Tests

open Sys2Proof.Machine

/-! ### Well-formedness: one ill-formed term for each check, and well-formed ones at the ends of the fields -/

theorem test_wf_refuses_unknown_mnemonic : RawInstr.wellFormed ⟨"8xy8", [0, 0]⟩ = false := by decide
theorem test_wf_refuses_missing_operand : RawInstr.wellFormed ⟨"8xy4", [1]⟩ = false := by decide
theorem test_wf_refuses_extra_operand : RawInstr.wellFormed ⟨"00E0", [0]⟩ = false := by decide
theorem test_wf_refuses_wide_x : RawInstr.wellFormed ⟨"6xkk", [16, 0]⟩ = false := by decide
theorem test_wf_refuses_wide_y : RawInstr.wellFormed ⟨"8xy4", [15, 16]⟩ = false := by decide
theorem test_wf_refuses_wide_n : RawInstr.wellFormed ⟨"Dxyn", [0, 0, 16]⟩ = false := by decide
theorem test_wf_refuses_wide_kk : RawInstr.wellFormed ⟨"7xkk", [0, 256]⟩ = false := by decide
theorem test_wf_refuses_wide_nnn : RawInstr.wellFormed ⟨"1nnn", [4096]⟩ = false := by decide
theorem test_wf_admits_the_ends_of_the_fields :
    RawInstr.wellFormed ⟨"Dxyn", [15, 15, 15]⟩ = true ∧ RawInstr.wellFormed ⟨"2nnn", [4095]⟩ = true ∧
      RawInstr.wellFormed ⟨"Cxkk", [15, 255]⟩ = true := by decide

/-! ### Decoding: every constructor by a word written from its pattern -/

theorem test_decode_fixed : decodeWord 0b0000_0000_1110_0000#16 = .ok .op00E0 ∧
    decodeWord 0b0000_0000_1110_1110#16 = .ok .op00EE := by decide

theorem test_decode_nnn : decodeWord 0b0001_1010_1011_1100#16 = .ok (.op1nnn 0xABC) ∧
    decodeWord 0b0010_0011_0000_0001#16 = .ok (.op2nnn 0x301) ∧
    decodeWord 0b1010_0010_1111_0000#16 = .ok (.opAnnn 0x2F0) ∧
    decodeWord 0b1011_0001_0010_0011#16 = .ok (.opBnnn 0x123) := by decide

theorem test_decode_xkk : decodeWord 0b0011_0011_0010_1010#16 = .ok (.op3xkk 3 0x2A) ∧
    decodeWord 0b0100_0011_0010_1011#16 = .ok (.op4xkk 3 0x2B) ∧
    decodeWord 0b0110_1010_0111_1111#16 = .ok (.op6xkk 0xA 0x7F) ∧
    decodeWord 0b0111_0010_0000_0010#16 = .ok (.op7xkk 2 0x02) ∧
    decodeWord 0b1100_0101_1010_0111#16 = .ok (.opCxkk 5 0xA7) := by decide

theorem test_decode_skips_and_draw : decodeWord 0b0101_0001_0010_0000#16 = .ok (.op5xy0 1 2) ∧
    decodeWord 0b1001_0001_0010_0000#16 = .ok (.op9xy0 1 2) ∧
    decodeWord 0b1101_0001_0010_0101#16 = .ok (.opDxyn 1 2 5) := by decide

theorem test_decode_family8 : decodeWord 0b1000_1010_1011_0000#16 = .ok (.op8xy0 0xA 0xB) ∧
    decodeWord 0b1000_1010_1011_0001#16 = .ok (.op8xy1 0xA 0xB) ∧
    decodeWord 0b1000_1010_1011_0010#16 = .ok (.op8xy2 0xA 0xB) ∧
    decodeWord 0b1000_1010_1011_0011#16 = .ok (.op8xy3 0xA 0xB) ∧
    decodeWord 0b1000_0011_0111_0100#16 = .ok (.op8xy4 3 7) ∧
    decodeWord 0b1000_0011_0111_0101#16 = .ok (.op8xy5 3 7) ∧
    decodeWord 0b1000_0100_0111_0110#16 = .ok (.op8xy6 4 7) ∧
    decodeWord 0b1000_0001_0010_0111#16 = .ok (.op8xy7 1 2) ∧
    decodeWord 0b1000_1010_1011_1110#16 = .ok (.op8xyE 0xA 0xB) := by decide

theorem test_decode_familyE : decodeWord 0b1110_0010_1001_1110#16 = .ok (.opEx9E 2) ∧
    decodeWord 0b1110_0010_1010_0001#16 = .ok (.opExA1 2) := by decide

theorem test_decode_familyF : decodeWord 0b1111_0100_0000_0111#16 = .ok (.opFx07 4) ∧
    decodeWord 0b1111_0011_0000_1010#16 = .ok (.opFx0A 3) ∧
    decodeWord 0b1111_0100_0001_0101#16 = .ok (.opFx15 4) ∧
    decodeWord 0b1111_0100_0001_1000#16 = .ok (.opFx18 4) ∧
    decodeWord 0b1111_0010_0001_1110#16 = .ok (.opFx1E 2) ∧
    decodeWord 0b1111_0001_0010_1001#16 = .ok (.opFx29 1) ∧
    decodeWord 0b1111_0101_0011_0011#16 = .ok (.opFx33 5) ∧
    decodeWord 0b1111_0010_0101_0101#16 = .ok (.opFx55 2) ∧
    decodeWord 0b1111_0010_0110_0101#16 = .ok (.opFx65 2) := by decide

/-- 95_test_vectors.md B-E: unknown words of that table, one of each family that has any. -/
theorem test_decode_unknown : decodeWord 0x0AE0 = .error (.unknownOpcode 0x0AE0) ∧
    decodeWord 0x5121 = .error (.unknownOpcode 0x5121) ∧ decodeWord 0x8AB8 = .error (.unknownOpcode 0x8AB8) ∧
    decodeWord 0x912F = .error (.unknownOpcode 0x912F) ∧ decodeWord 0xE1A0 = .error (.unknownOpcode 0xE1A0) ∧
    decodeWord 0xF075 = .error (.unknownOpcode 0xF075) := by decide

/-- A truncated instruction is refused, and the bytes after an instruction are given back. -/
theorem test_decode_bytes : decode [0x12#8] = .error .truncated ∧
    decode [0x12#8, 0x34, 0x56] = .ok (.op1nnn 0x234, [0x56]) := by decide

theorem test_decodeTableWord : decodeTableWord 16 0x8124 = some (.op8xy4 1 2) ∧ decodeTableWord 16 0x0000 = none := by decide

/-! ### One step of each instruction -/

/-- The next state meets a test. -/
def leads (o : Host.Outcome State Fault Refusal) (test : State → Bool) : Bool :=
  match o with
  | .next t => test t
  | .fault _ => false
  | .refused _ => false

/-- The reset state with two bytes of an instruction at 0x200. -/
def program (hi lo : Byte) : State := State.reset.storeBytes 0x200 [hi, lo]

/-- Registers, given in order from V0. -/
def withV (s : State) (bs : List Byte) : State := s.setVs (Vector.ofFn fun i => bs.getD i.val 0)

/-- One V register. -/
def v (s : State) (x : Nibble) (b : Byte) : State := s.setV x b

/-- D11 -/
theorem test_00E0 : leads (step ((program 0x00 0xE0).setFb (Vector.replicate 32 5)))
    (fun t => t.fb == Vector.replicate 32 0 && t.dirty && t.pc == 0x202) = true := by decide

/-- C4, C5 -/
theorem test_00EE : leads (step (((program 0x00 0xEE).setStack (Vector.replicate 16 0x0204) 1)))
    (fun t => t.pc == 0x0204 && t.sp == 0) = true := by decide
theorem test_00EE_underflow : leads (step (program 0x00 0xEE))
    (fun t => t.fault == ⟨.stackUnderflow, 0x00EE, 0x0200, 0⟩ && t.pc == 0x0202 && t.mode == .faulted) = true := by decide

/-- C1 -/
theorem test_1nnn : leads (step (program 0x1A 0xBC)) (fun t => t.pc == 0x0ABC) = true := by decide

/-- C3, C6 -/
theorem test_2nnn : leads (step (program 0x23 0x00)) (fun t => t.stack[0] == 0x0202 && t.sp == 1 && t.pc == 0x0300) = true := by
  decide
theorem test_2nnn_overflow : leads (step ((program 0x23 0x00).setStack (Vector.replicate 16 7) 16))
    (fun t => t.fault == ⟨.stackOverflow, 0x2300, 0x0200, 0⟩ && t.pc == 0x0202 && t.sp == 16) = true := by decide

/-- C7, C8 -/
theorem test_3xkk : leads (step (v (program 0x33 0x2A) 3 0x2A)) (fun t => t.pc == 0x204) = true ∧
    leads (step (v (program 0x33 0x2A) 3 0x2B)) (fun t => t.pc == 0x202) = true := by decide

/-- C9, C10 -/
theorem test_4xkk : leads (step (v (program 0x43 0x2A) 3 0x2A)) (fun t => t.pc == 0x202) = true ∧
    leads (step (v (program 0x43 0x2A) 3 0x00)) (fun t => t.pc == 0x204) = true := by decide

/-- C11 -/
theorem test_5xy0 : leads (step (withV (program 0x51 0x20) [0, 7, 7])) (fun t => t.pc == 0x204) = true ∧
    leads (step (withV (program 0x51 0x20) [0, 7, 8])) (fun t => t.pc == 0x202) = true := by decide

/-- A-2 -/
theorem test_6xkk : leads (step (program 0x6F 0x12)) (fun t => t.getV 15 == 0x12 && t.getV 14 == 0) = true := by decide

/-- A-3, A-5 -/
theorem test_7xkk : leads (step (v (program 0x72 0x02) 2 0xFF)) (fun t => t.getV 2 == 0x01 && t.getV 15 == 0) = true ∧
    leads (step (v (program 0x7F 0x01) 15 0xFF)) (fun t => t.getV 15 == 0x00) = true := by decide

/-- A-6 -/
theorem test_8xy0 : leads (step (withV (program 0x80 0x10) [0, 0x33])) (fun t => t.getV 0 == 0x33 && t.getV 1 == 0x33) = true := by
  decide

/-- A-7 -/
theorem test_8xy1 : leads (step (v (withV (program 0x80 0x11) [0xF0, 0x0F]) 15 1))
    (fun t => t.getV 0 == 0xFF && t.getV 15 == 1) = true := by decide

/-- A-8 -/
theorem test_8xy2 : leads (step (withV (program 0x80 0x12) [0xF3, 0x3F])) (fun t => t.getV 0 == 0x33) = true := by decide

/-- A-9 -/
theorem test_8xy3 : leads (step (withV (program 0x80 0x13) [0xFF, 0x0F])) (fun t => t.getV 0 == 0xF0) = true := by decide

/-- A-11, A-17, A-19 -/
theorem test_8xy4 : leads (step (withV (program 0x80 0x14) [0xFA, 0x0A])) (fun t => t.getV 0 == 4 && t.getV 15 == 1) = true := by
  decide
theorem test_8xy4_flag_register : leads (step (v (withV (program 0x8F 0x14) [0, 2]) 15 0xFF)) (fun t => t.getV 15 == 1) = true ∧
    leads (step (v (withV (program 0x80 0xF4) [0x10]) 15 0xF5)) (fun t => t.getV 0 == 5 && t.getV 15 == 1) = true := by decide

/-- A-20, A-22, A-24 -/
theorem test_8xy5 : leads (step (withV (program 0x80 0x15) [5, 10])) (fun t => t.getV 0 == 0xFB && t.getV 15 == 0) = true ∧
    leads (step (withV (program 0x80 0x15) [5, 5])) (fun t => t.getV 0 == 0 && t.getV 15 == 1) = true := by decide
theorem test_8xy5_flag_register : leads (step (v (withV (program 0x8F 0x15) [0, 5]) 15 3)) (fun t => t.getV 15 == 0) = true := by
  decide

/-- A-27, A-30 -/
theorem test_8xy6 : leads (step (v (v (program 0x84 0x76) 4 5) 7 0xAA))
    (fun t => t.getV 4 == 2 && t.getV 15 == 1 && t.getV 7 == 0xAA) = true := by decide
theorem test_8xy6_flag_register : leads (step (v (program 0x8F 0x06) 15 3)) (fun t => t.getV 15 == 1) = true := by decide

/-- A-32, A-35 -/
theorem test_8xy7 : leads (step (withV (program 0x81 0x27) [0, 0x0A, 3])) (fun t => t.getV 1 == 0xF9 && t.getV 15 == 0) = true := by
  decide
theorem test_8xy7_flag_register : leads (step (v (withV (program 0x8F 0x17) [0, 9]) 15 2)) (fun t => t.getV 15 == 1) = true := by
  decide

/-- A-36, A-39 -/
theorem test_8xyE : leads (step (v (v (program 0x84 0x7E) 4 0x81) 7 0xAA))
    (fun t => t.getV 4 == 2 && t.getV 15 == 1 && t.getV 7 == 0xAA) = true := by decide
theorem test_8xyE_flag_register : leads (step (v (program 0x8F 0x0E) 15 0x81)) (fun t => t.getV 15 == 1) = true := by decide

/-- C13, and its negation -/
theorem test_9xy0 : leads (step (withV (program 0x91 0x20) [0, 7, 7])) (fun t => t.pc == 0x202) = true ∧
    leads (step (withV (program 0x91 0x20) [0, 7, 8])) (fun t => t.pc == 0x204) = true := by decide

/-- M1 -/
theorem test_Annn : leads (step (program 0xA2 0xF0)) (fun t => t.index == 0x2F0) = true := by decide

/-- C16 -/
theorem test_Bnnn : leads (step (v (program 0xBF 0xFF) 0 0xFF)) (fun t => t.pc == 0x10FE) = true := by decide

/-- T11, T12 (with the random byte given) -/
theorem test_Cxkk : leads (step (program 0xC3 0x00)) (fun t => t.draws == 1 && t.pc == 0x202) = true ∧
    (randomMasked 0xA7 3 0x0F State.reset).getV 3 = 0x07 := by decide

/-- D3, D6 -/
theorem test_Dxyn : leads (step ((withV (program 0xD0 0x11) [67, 33]).storeBytes 0x300 [0x90] |>.setI 0x300))
    (fun t => t.pixel 1 3 && !t.pixel 1 4 && t.pixel 1 6 && t.getV 15 == 0 && t.dirty) = true := by decide
theorem test_Dxyn_out_of_range : leads (step ((program 0xD0 0x13).setI 0x0FFE))
    (fun t => t.fault == ⟨.memoryOutOfRange, 0xD013, 0x0200, 0x1000⟩ && !t.dirty && t.fb == Vector.replicate 32 0) = true := by
  decide

/-- K1, K5 -/
theorem test_Ex9E : leads (step (v ((program 0xE2 0x9E).setKey (Vector.ofFn fun i => i.val == 5)) 2 0x05)) (fun t => t.pc == 0x204) = true ∧
    leads (step (v ((program 0xE2 0x9E).setKey (Vector.ofFn fun i => i.val == 5)) 2 0x15)) (fun t => t.pc == 0x204) = true := by
  decide

/-- K3, K4 -/
theorem test_ExA1 : leads (step (v ((program 0xE2 0xA1).setKey (Vector.ofFn fun i => i.val == 5)) 2 0x05)) (fun t => t.pc == 0x202) = true ∧
    leads (step (program 0xE2 0xA1)) (fun t => t.pc == 0x204) = true := by decide

/-- T1 -/
theorem test_Fx07 : leads (step ((program 0xF4 0x07).setDt 0x3C)) (fun t => t.getV 4 == 0x3C && t.dt == 0x3C) = true := by decide

/-- K6, K9 -/
theorem test_Fx0A : leads (step (v (program 0xF3 0x0A) 3 9)) (fun t => t.mode == .waitkey && t.waitx == 3 && t.getV 3 == 9 &&
    (t.keyPress 0xB).getV 3 == 0x0B && (t.keyPress 0xB).mode == .run) = true := by decide

/-- T2 -/
theorem test_Fx15 : leads (step (v (program 0xF4 0x15) 4 0x3C)) (fun t => t.dt == 0x3C && t.st == 0) = true := by decide

/-- T3 -/
theorem test_Fx18 : leads (step (v (program 0xF4 0x18) 4 0x02)) (fun t => t.st == 0x02 && t.dt == 0) = true := by decide

/-- M3, M4 -/
theorem test_Fx1E : leads (step (v ((program 0xF2 0x1E).setI 0x0FFF) 2 1)) (fun t => t.index == 0x1000 && t.getV 15 == 0) = true ∧
    leads (step (v ((program 0xF2 0x1E).setI 0xFFFF) 2 1)) (fun t => t.index == 0) = true := by decide

/-- M5, M8 -/
theorem test_Fx29 : leads (step (v (program 0xF1 0x29) 1 0x0A)) (fun t => t.index == 0x32) = true ∧
    leads (step (v (program 0xF1 0x29) 1 0xFF)) (fun t => t.index == 0x4FB) = true := by decide

/-- M9, M14 -/
theorem test_Fx33 : leads (step (v ((program 0xF5 0x33).setI 0x300) 5 0x9C))
    (fun t => t.readBytes 0x300 3 == [1, 5, 6] && t.index == 0x300) = true := by decide
theorem test_Fx33_out_of_range : leads (step (v ((program 0xF5 0x33).setI 0xFFE) 5 7))
    (fun t => t.fault == ⟨.memoryOutOfRange, 0xF533, 0x200, 0x1000⟩ && t.readByte 0xFFF == 0) = true := by decide

/-- M18, M22 -/
theorem test_Fx55 : leads (step (withV ((program 0xF2 0x55).setI 0x400) [0xAA, 0xBB, 0xCC, 0xDD]))
    (fun t => t.readBytes 0x400 4 == [0xAA, 0xBB, 0xCC, 0] && t.index == 0x400) = true := by decide
theorem test_Fx55_font : leads (step (withV (program 0xF0 0x55) [1]))
    (fun t => t.fault == ⟨.fontWriteFault, 0xF055, 0x200, 0⟩ && t.mem == (program 0xF0 0x55).mem) = true := by decide

/-- M23, M25 -/
theorem test_Fx65 : leads (step (v ((program 0xF2 0x65).storeBytes 0x400 [0xAA, 0xBB, 0xCC, 0xDD] |>.setI 0x400) 3 7))
    (fun t => t.getV 0 == 0xAA && t.getV 2 == 0xCC && t.getV 3 == 7 && t.index == 0x400) = true := by decide
theorem test_Fx65_out_of_range : leads (step ((program 0xFF 0x65).setI 0xFF1))
    (fun t => t.fault.addr == 0x1000 && t.v == State.reset.v) = true := by decide

/-! ### The step, memory and the interface -/

/-- C17: a fetch at 0x0FFF faults at 0x1000, PC unchanged. -/
theorem test_fetch_fault : leads (step (State.reset.setPc 0x0FFF))
    (fun t => t.fault == ⟨.memoryOutOfRange, 0, 0x0FFF, 0x1000⟩ && t.pc == 0x0FFF) = true := by decide

/-- R2: the first step after reset fetches 0x0000 at 0x0200. -/
theorem test_step_from_reset : leads (step State.reset)
    (fun t => t.fault == ⟨.unknownOpcode, 0x0000, 0x0200, 0⟩ && t.pc == 0x0202 && t.mode == .faulted) = true := by decide

/-- The very next step runs the placed word, after reset and where PC is past the end of memory. -/
theorem test_withFetchWord : leads (step (State.reset.withFetchWord 16 0x6A7F)) (fun t => t.getV 10 == 0x7F) = true ∧
    leads (step ((State.reset.setPc 0x1002).withFetchWord 16 0x6A7F)) (fun t => t.getV 10 == 0x7F) = true := by decide

/-- Writing what an unlisted address reads as removes the entry; a cell is kept in its place. -/
theorem test_memory_canonical : Memory.set [(0x300, 5)] 0x300 0 = [] ∧
    Memory.set [(0x300, 5)] 0x2FF 7 = [(0x2FF, 7), (0x300, 5)] ∧ Memory.wf State.reset.mem = true ∧
    Memory.wf [(0x300, 5), (0x2FF, 7)] = false ∧ Memory.wf [(0x300, 0)] = false ∧ Memory.wf [(0x1000, 1)] = false := by decide

/-- T5: three ticks from ST = 2. -/
theorem test_tick : (State.reset.setSt 2).soundStop = false ∧ (State.reset.setSt 2).tickTimers.soundStop = true ∧
    (State.reset.setSt 2).tickTimers.tickTimers.soundStop = false := by decide

/-- 20_memory.md R70: the glyph of the digit 7 (default table). -/
theorem test_font : State.reset.readBytes 0x23 5 = [0xF0, 0x10, 0x20, 0x40, 0x40] := by decide

/-! ### Witnesses: a state and operands that meet the hypotheses of each obligation -/

/-- EncodeOfDecodeIsTheWord, DecoderAgreesWithTheOpcodeTable. -/
theorem witness_decoded_word : decodeWord 0x8AB4 = .ok (.op8xy4 0xA 0xB) ∧
    (∃ r ∈ opcodeTable, r.mnemonic = "8xy4") := by decide

/-- UnknownWordsAreThoseListed: at the reset PC, and at the last address that can be fetched. -/
theorem witness_unknown_word : State.reset.mode = .run ∧ State.reset.pc.toNat ≤ 0xFFE ∧
    decodeWord (wordOfBytes (State.reset.readByte State.reset.pc.toNat) (State.reset.readByte (State.reset.pc.toNat + 1))) =
      .error (.unknownOpcode 0) := by decide
def lastWord (hi lo : Byte) : State := (State.reset.storeBytes 0xFFE [hi, lo]).setPc 0xFFE
theorem witness_unknown_last_word : (lastWord 0xFF 0xFF).mode = .run ∧ (lastWord 0xFF 0xFF).pc.toNat = 0xFFE ∧
    decodeWord (wordOfBytes ((lastWord 0xFF 0xFF).readByte 0xFFE) ((lastWord 0xFF 0xFF).readByte 0xFFF)) =
      .error (.unknownOpcode 0xFFFF) := by decide

/-- StepRunsTheDecodedInstruction (C19 at the last address that can be fetched). -/
theorem witness_step_runs : (program 0x60 0x05).mode = .run ∧ (program 0x60 0x05).pc.toNat = 0x200 ∧
    decodeWord (wordOfBytes ((program 0x60 0x05).readByte 0x200) ((program 0x60 0x05).readByte 0x201)) = .ok (.op6xkk 0 5) ∧
    (lastWord 0x1F 0xFE).mode = .run ∧ (lastWord 0x1F 0xFE).pc.toNat = 0xFFE ∧
    decodeWord (wordOfBytes ((lastWord 0x1F 0xFE).readByte 0xFFE) ((lastWord 0x1F 0xFE).readByte 0xFFF)) = .ok (.op1nnn 0xFFE) := by
  decide

/-- FetchAboveTheLastWordFaults, at both ends of the range; the mode is also the premise of Jump's last clause. -/
theorem witness_fetch_fault : (State.reset.setPc 0x0FFF).mode = .run ∧ 0xFFF ≤ (State.reset.setPc 0x0FFF).pc.toNat ∧
    (State.reset.setPc 0xFFFF).mode = .run ∧ 0xFFF ≤ (State.reset.setPc 0xFFFF).pc.toNat := by decide

/-- StepWhileWaitingChangesNothing. -/
theorem witness_waiting : (State.reset.setMode .waitkey).mode = .waitkey := by decide

/-- StepAnswersWaitingExactlyAfterKeyWait: a step that waits and one that does not. -/
theorem witness_answers_waiting : (∃ t, (program 0xF3 0x0A).mode = .run ∧ step (program 0xF3 0x0A) = .next t ∧ t.stepResult = .waiting) ∧
    ∃ t, (program 0x60 0x05).mode = .run ∧ step (program 0x60 0x05) = .next t ∧ t.stepResult = .ok :=
  ⟨⟨_, by decide, rfl, by decide⟩, ⟨_, by decide, rfl, by decide⟩⟩

/-- InstructionsWriteOnlyTheirElements, OnlySixInstructionsFault: one that goes on and one that faults. -/
theorem witness_exec_both_ways : (∃ t, State.reset.Safe ∧ exec (.op6xkk 0 5) State.reset = .next t ∧ t.Safe) ∧
    ∃ t, State.reset.Safe ∧ exec .op00EE State.reset = .next t ∧ ¬ t.Safe :=
  ⟨⟨_, by decide, rfl, by decide⟩, ⟨_, by decide, rfl, by decide⟩⟩

/-- StepsLeaveDevicesToTheirInstructions: each premise of its clauses is met by some step. -/
theorem witness_devices : (∃ t, step (v (program 0xF4 0x15) 4 1) = .next t ∧ t.dt ≠ (v (program 0xF4 0x15) 4 1).dt) ∧
    (∃ t, step (v (program 0xF4 0x18) 4 1) = .next t ∧ t.st ≠ (v (program 0xF4 0x18) 4 1).st) ∧
    (∃ t, step (program 0xC3 0x00) = .next t ∧ t.draws ≠ (program 0xC3 0x00).draws) ∧
    ∃ t, ((program 0x60 0x05).setDirty true).dirty = true ∧ step ((program 0x60 0x05).setDirty true) = .next t :=
  ⟨⟨_, rfl, by decide⟩, ⟨_, rfl, by decide⟩, ⟨_, rfl, by decide⟩, ⟨_, by decide, rfl⟩⟩

/-- OnlyKeySkipsReadTheLatch. -/
theorem witness_no_key_skip : (∀ x, decodeWord (program 0x60 0x05).fetchWord ≠ .ok (.opEx9E x)) ∧
    (∀ x, decodeWord (program 0x60 0x05).fetchWord ≠ .ok (.opExA1 x)) ∧ ∃ t, step (program 0x60 0x05) = .next t :=
  ⟨by decide, by decide, _, rfl⟩

/-- AddImmediate, third clause, with and without a wrap (A1). -/
theorem witness_add_twice : (0x35#8).toNat = ((0x20#8).toNat + (0x15#8).toNat) % 256 ∧
    (0x01#8).toNat = ((0xFF#8).toNat + (0x02#8).toNat) % 256 := by decide

/-- The clauses `x ≠ 15` and `j ≠ x` of the ALU statements; x = 15 is met by the flag clause beside them. -/
theorem witness_other_registers : (0 : Nibble) ≠ 15 ∧ (14 : Nibble) ≠ 15 := by decide

/-- Call and ReturnUndoesCall: an empty stack, the last free entry, a full stack. -/
theorem witness_call : State.reset.sp.val < 16 ∧ (State.reset.setStack State.reset.stack 15).sp.val < 16 ∧
    (State.reset.setStack State.reset.stack 16).sp.val = 16 := by decide

/-- Return: one entry, a full stack, an empty stack. -/
theorem witness_return : 0 < (State.reset.setStack State.reset.stack 1).sp.val ∧
    0 < (State.reset.setStack State.reset.stack 16).sp.val ∧ State.reset.sp.val = 0 := by decide

/-- StoreDecimal: the lowest and highest addresses that work, and the two clauses that fault. -/
theorem witness_store_decimal : (0x050 ≤ (State.reset.setI 0x050).effAddr 0 ∧ (State.reset.setI 0x050).effAddr 2 ≤ 4095) ∧
    (0x050 ≤ (State.reset.setI 0xFFD).effAddr 0 ∧ (State.reset.setI 0xFFD).effAddr 2 ≤ 4095) ∧
    (State.reset.setI 0x04F).effAddr 0 ≤ 0x04F ∧ State.reset.effAddr 0 ≤ 0x04F ∧
    4095 < (State.reset.setI 0xFFE).effAddr 2 ∧ 4095 < (State.reset.setI 0xFFFF).effAddr 2 := by decide

/-- StoreRegisters: the ends of each clause. -/
theorem witness_store_registers : (0x050 ≤ (State.reset.setI 0x050).effAddr 0 ∧ (State.reset.setI 0x050).effAddr (0#4).toNat ≤ 4095) ∧
    (0x050 ≤ (State.reset.setI 0xFF0).effAddr 0 ∧ (State.reset.setI 0xFF0).effAddr (15#4).toNat ≤ 4095) ∧
    (State.reset.setI 0x04F).effAddr 0 ≤ 0x04F ∧ 4095 < (State.reset.setI 0xFF1).effAddr (15#4).toNat ∧
    4095 < (State.reset.setI 0x1000).effAddr (0#4).toNat ∧ (3#4).toNat ≤ (15#4).toNat := by decide

/-- LoadRegisters: the ends of each clause; the font may be read. -/
theorem witness_load_registers : State.reset.effAddr (0#4).toNat ≤ 4095 ∧ (State.reset.setI 0xFF0).effAddr (15#4).toNat ≤ 4095 ∧
    4095 < (State.reset.setI 0xFF1).effAddr (15#4).toNat ∧ 4095 < (State.reset.setI 0x1000).effAddr (0#4).toNat := by decide

/-- StoredInstructionRunsNext: V0, V1 = 62 55 stored where PC points (the word of program P7). -/
theorem witness_stored_instruction :
    let s := (withV State.reset [0x62, 0x55]).setI 0x200
    s.mode = .run ∧ s.index = s.pc ∧ 1 ≤ (1#4).toNat ∧ 0x050 ≤ s.effAddr 0 ∧ s.effAddr (1#4).toNat ≤ 4095 ∧
      decodeWord (wordOfBytes (s.getV 0) (s.getV 1)) = .ok (.op6xkk 2 0x55) := by decide

/-- FontIsNeverWritten, StepsKeepStatesLegal and others over steps: a step that stores. -/
theorem witness_step_that_stores : ∃ t, step (v ((program 0xF5 0x33).setI 0x050) 5 0x9C) = .next t ∧
    t.readByte 0x052 ≠ (v ((program 0xF5 0x33).setI 0x050) 5 0x9C).readByte 0x052 ∧ 0x04F ≤ 0x04F :=
  ⟨_, rfl, by decide, by decide⟩

/-- DrawSprite: n = 0 anywhere, the last byte of memory, and one past it. -/
theorem witness_draw : ((0#4).toNat = 0 ∨ (State.reset.setI 0xFFFF).effAddr (0#4).toNat ≤ 4096) ∧
    ((1#4).toNat = 0 ∨ (State.reset.setI 0xFFF).effAddr (1#4).toNat ≤ 4096) ∧
    (3#4).toNat ≠ 0 ∧ 4096 < (State.reset.setI 0xFFE).effAddr (3#4).toNat ∧
    (1#4).toNat ≠ 0 ∧ 4096 < (State.reset.setI 0x1000).effAddr (1#4).toNat := by decide

/-- DrawingTwiceRestores, with the clear screen of its second part. -/
theorem witness_draw_twice : (0 : Nibble) ≠ 15 ∧ (1 : Nibble) ≠ 15 ∧ ((5#4).toNat = 0 ∨ State.reset.effAddr (5#4).toNat ≤ 4096) ∧
    ∀ row col, State.reset.pixel row col = false := by
  refine ⟨by decide, by decide, by decide, fun row col => ?_⟩
  simp [State.pixel, State.reset]

/-- KeyPressOutsideAWaitIsDropped, in both other modes. -/
theorem witness_no_wait : State.reset.mode ≠ .waitkey ∧ (State.reset.setMode .faulted).mode ≠ .waitkey := by decide

/-- FaultsArePrecise: a fault in an instruction, an unknown word and a fetch fault. -/
theorem witness_faults : (∃ t, (program 0x00 0xEE).Safe ∧ step (program 0x00 0xEE) = .next t ∧ ¬ t.Safe) ∧
    (∃ t, State.reset.Safe ∧ State.reset.pc.toNat ≤ 0xFFE ∧ step State.reset = .next t ∧ ¬ t.Safe) ∧
    ∃ t, (State.reset.setPc 0xFFF).Safe ∧ 0xFFF ≤ (State.reset.setPc 0xFFF).pc.toNat ∧
      step (State.reset.setPc 0xFFF) = .next t ∧ ¬ t.Safe :=
  ⟨⟨_, by decide, rfl, by decide⟩, ⟨_, by decide, by decide, rfl, by decide⟩, ⟨_, by decide, by decide, rfl, by decide⟩⟩

/-- OnlyResetLeavesFaulted: a faulted state, and an operation that is not `reset`. -/
theorem witness_faulted : ¬ (State.reset.raise .stackUnderflow 0x00EE 0x0200 0).Safe ∧ Operation.keyPress 3 ≠ .reset ∧
    ∃ t r, operate (.keyPress 3) (State.reset.raise .stackUnderflow 0x00EE 0x0200 0) = .next (t, r) :=
  ⟨by decide, by decide, _, _, rfl⟩

/-- LoadProgramCopiesOrRefuses: the longest program and one byte more (A11). -/
theorem witness_load : (List.replicate 3584 (0x12 : Byte)).length ≤ 3584 ∧ 3584 < (List.replicate 3585 (0x12 : Byte)).length := by
  simp only [List.length_replicate]
  omega

/-- A legal state with a program, one return address and a step to take. -/
def legalState : State := (program 0x60 0x05).setStack (Vector.replicate 16 0x0204) 1

/-- StepsKeepStatesLegal, EveryHostScheduleKeepsStatesLegal. -/
theorem witness_legal : legalState.Inv ∧ (∃ t, step legalState = .next t) ∧
    (∃ t r, operate .tickTimers legalState = .next (t, r)) ∧ Reachable State.reset := by
  refine ⟨⟨by decide, ?_, by decide, ?_, by decide, rfl⟩, ⟨_, rfl⟩, ⟨_, _, rfl⟩, .reset⟩
  · decide
  · intro i h _
    simp [legalState]

/-- CanonicalMemoriesAreEqual. -/
theorem witness_canonical : Memory.wf [(0x200, 0x60), (0xFFF, 1)] = true ∧
    ∀ a, Memory.get [(0x200, 0x60), (0xFFF, 1)] a = Memory.get (Memory.set [(0xFFF, 1)] 0x200 0x60) a :=
  ⟨by decide, fun _ => rfl⟩

end Sys2Proof.Tests
end

section
/-! PROOFS. Fetch, decode and dispatch (spec/40_fetch_decode_dispatch.md). -/

namespace Sys2Proof.Machine

/-- What the host sees of a step that goes on: the state after it, and its result (R120, R127). -/
theorem operate_step_of_next {s t : State} (h : step s = .next t) :
    operate .step s = .next (t, .stepped t.stepResult) := by
  simp only [operate, h]

/-- A state that waits for a key answers `Waiting` (R127). -/
theorem stepResult_of_waitkey {s : State} (h : s.mode = .waitkey) : s.stepResult = .waiting := by
  simp only [State.stepResult, h]

/-- Settles O8: out of mode RUN a step stays in its state, and the result of a waiting state is `Waiting` (R122). -/
theorem stepWhileWaitingChangesNothing : Obligations.StepWhileWaitingChangesNothing := by
  intro s hwait
  have hstay : step s = .next s := step_of_not_run (by simp [hwait])
  rw [operate_step_of_next hstay, stepResult_of_waitkey hwait]

end Sys2Proof.Machine
end

section
/-! PROOFS. Control flow (spec/41_control_flow.md). -/

namespace Sys2Proof

/-! ### Words of the jump and of the skips (R96) -/

theorem decodeWord_1nnn (nnn : Addr12) : decodeWord (0x1#4 ++ nnn) = .ok (.op1nnn nnn) := by
  simp [decodeWord]

theorem decodeWord_3xkk (x : Nibble) (kk : Byte) : decodeWord (0x3#4 ++ x ++ kk) = .ok (.op3xkk x kk) := by
  simp [decodeWord]

theorem decodeWord_4xkk (x : Nibble) (kk : Byte) : decodeWord (0x4#4 ++ x ++ kk) = .ok (.op4xkk x kk) := by
  simp [decodeWord]

/-- Family 5 has one row, the one whose last nibble is 0 (R97). -/
theorem decodeWord_5xyN (x y n : Nibble) : decodeWord (0x5#4 ++ x ++ y ++ n) =
    if n = 0 then .ok (.op5xy0 x y) else .error (.unknownOpcode (0x5#4 ++ x ++ y ++ n)) := by
  simp [decodeWord]

/-- Family 9 has one row, the one whose last nibble is 0 (R97). -/
theorem decodeWord_9xyN (x y n : Nibble) : decodeWord (0x9#4 ++ x ++ y ++ n) =
    if n = 0 then .ok (.op9xy0 x y) else .error (.unknownOpcode (0x9#4 ++ x ++ y ++ n)) := by
  simp [decodeWord]

end Sys2Proof

namespace Sys2Proof.Machine

/-! ### The frame of a move of PC (R131) -/

theorem changesOnly_setPc (s : State) (w : Word) : s.ChangesOnly [.pc] (s.setPc w) := by
  intro c hc
  cases c with
  | pc => exact absurd List.mem_cons_self hc
  | v | mem => exact fun _ => rfl
  | index | stack | sp | dt | st | key | fb | dirty | mode | waitx | fault | draws => rfl

/-! ### Jump (R141) -/

theorem exec_op1nnn (nnn : Addr12) (s : State) : exec (.op1nnn nnn) s = .next (s.setPc (address nnn)) := rfl

/-- No word can be fetched at 0xFFF or above: the fetch enters `MemoryOutOfRange` (R123). -/
theorem step_of_pc_above_last_word {s : State} (hrun : s.mode = .run) (hpc : 0xFFF ≤ s.pc.toNat) :
    step s = .next (s.raiseAtFetch .memoryOutOfRange (max s.pc.toNat 0x1000)) :=
  step_of_fetchFault hrun ((fetchFault_some_iff s _).mpr ⟨hpc, rfl⟩)

/-- Settles O20: PC is the zero-extended nnn; at 0xFFF the next fetch has no second byte to read. -/
theorem jump : Obligations.Jump := by
  refine ⟨decodeWord_1nnn, fun nnn s => ?_, fun s hrun => ?_⟩
  · exact ⟨_, exec_op1nnn nnn s, address_toNat nnn, changesOnly_setPc s _⟩
  · have hpc : 0xFFF ≤ (s.setPc (address 0xFFF)).pc.toNat := (address_toNat 0xFFF).ge
    exact ⟨_, _, exec_op1nnn 0xFFF s, step_of_pc_above_last_word hrun hpc, rfl, rfl⟩

/-! ### Skips (R143 to R146, R148) -/

theorem exec_op3xkk (x : Nibble) (kk : Byte) (s : State) :
    exec (.op3xkk x kk) s = .next (skipIf (s.getV x == kk) s) := rfl

theorem exec_op4xkk (x : Nibble) (kk : Byte) (s : State) :
    exec (.op4xkk x kk) s = .next (skipIf (s.getV x != kk) s) := rfl

theorem exec_op5xy0 (x y : Nibble) (s : State) :
    exec (.op5xy0 x y) s = .next (skipIf (s.getV x == s.getV y) s) := rfl

theorem exec_op9xy0 (x y : Nibble) (s : State) :
    exec (.op9xy0 x y) s = .next (skipIf (s.getV x != s.getV y) s) := rfl

section
variable {i : Instr} {s : State} {taken : Bool} {p : Prop} [Decidable p]

/-- An instruction that skips exactly when `p` holds adds 2 to PC then, and changes nothing else (R148). -/
theorem exec_skip_when (hexec : exec i s = .next (skipIf taken s)) (htaken : taken = true ↔ p) :
    ∃ t, exec i s = .next t ∧ s.ChangesOnly [.pc] t ∧ t.pc = if p then s.pc + 2 else s.pc := by
  rw [skipIf_eq] at hexec
  exact ⟨_, hexec, changesOnly_setPc s _, if_congr htaken rfl rfl⟩

/-- The complement: a skip taken exactly when `p` fails. -/
theorem exec_skip_unless (hexec : exec i s = .next (skipIf taken s)) (htaken : taken = true ↔ ¬ p) :
    ∃ t, exec i s = .next t ∧ s.ChangesOnly [.pc] t ∧ t.pc = if p then s.pc else s.pc + 2 := by
  simpa only [ite_not] using exec_skip_when hexec htaken

end

/-- The equality test of the skips compares the bytes as unsigned numbers. -/
theorem beq_iff_toNat_eq (a b : Byte) : (a == b) = true ↔ a.toNat = b.toNat := by
  rw [beq_iff_eq, BitVec.toNat_inj]

theorem bne_iff_toNat_ne (a b : Byte) : (a != b) = true ↔ ¬ a.toNat = b.toNat := by
  rw [bne_iff_ne, ne_eq, BitVec.toNat_inj]

/-- Settles O25: the tests of `3xkk` and `4xkk` are complements, and each skips when its own test holds. -/
theorem skipOnImmediate : Obligations.SkipOnImmediate := by
  refine ⟨fun x kk => ⟨decodeWord_3xkk x kk, decodeWord_4xkk x kk⟩, fun x kk s => ⟨?_, ?_⟩⟩
  · exact exec_skip_when (exec_op3xkk x kk s) (beq_iff_toNat_eq _ _)
  · exact exec_skip_unless (exec_op4xkk x kk s) (bne_iff_toNat_ne _ _)

/-- Settles O26: as for the immediate skips, with Vy in place of kk; a last nibble other than 0 is in no row. -/
theorem skipOnRegisters : Obligations.SkipOnRegisters := by
  refine ⟨fun x y n => ⟨decodeWord_5xyN x y n, decodeWord_9xyN x y n⟩, fun x y s => ⟨?_, ?_⟩⟩
  · exact exec_skip_when (exec_op5xy0 x y s) (beq_iff_toNat_eq _ _)
  · exact exec_skip_unless (exec_op9xy0 x y s) (bne_iff_toNat_ne _ _)

end Sys2Proof.Machine
end

section
/-! PROOFS. Register load, add-immediate and the group 8xy_ (spec/42_load_alu.md). -/

namespace Sys2Proof

/-! ### Words of the load and of the arithmetic (R96) -/

theorem decodeWord_6xkk (x : Nibble) (kk : Byte) : decodeWord (0x6#4 ++ x ++ kk) = .ok (.op6xkk x kk) := by
  simp [decodeWord]

theorem decodeWord_7xkk (x : Nibble) (kk : Byte) : decodeWord (0x7#4 ++ x ++ kk) = .ok (.op7xkk x kk) := by
  simp [decodeWord]

/-- The words of family 8, the last nibble telling them apart (R97): the other seven values are in no row. -/
theorem decodeWord_8xyN (x y n : Nibble) : decodeWord (0x8#4 ++ x ++ y ++ n) =
    if n = 0x0 then .ok (.op8xy0 x y) else if n = 0x1 then .ok (.op8xy1 x y)
    else if n = 0x2 then .ok (.op8xy2 x y) else if n = 0x3 then .ok (.op8xy3 x y)
    else if n = 0x4 then .ok (.op8xy4 x y) else if n = 0x5 then .ok (.op8xy5 x y)
    else if n = 0x6 then .ok (.op8xy6 x y) else if n = 0x7 then .ok (.op8xy7 x y)
    else if n = 0xE then .ok (.op8xyE x y) else .error (.unknownOpcode (0x8#4 ++ x ++ y ++ n)) := by
  simp [decodeWord, decodeFamily8]

end Sys2Proof

namespace Sys2Proof.Machine

/-! ### The frame of a register write (R131) -/

theorem changesOnly_setV (s : State) (x : Nibble) (b : Byte) : s.ChangesOnly [.v] (s.setV x b) := by
  intro c hc
  cases c with
  | v => exact absurd List.mem_cons_self hc
  | mem => exact fun _ => rfl
  | index | pc | stack | sp | dt | st | key | fb | dirty | mode | waitx | fault | draws => rfl

theorem State.ChangesOnly.trans {s t u : State} {may : List Component} (hst : s.ChangesOnly may t)
    (htu : t.ChangesOnly may u) : s.ChangesOnly may u := by
  intro c hc
  have hst := hst c hc
  have htu := htu c hc
  cases c with
  | v | mem => exact fun a => (htu a).trans (hst a)
  | index | pc | stack | sp | dt | st | key | fb | dirty | mode | waitx | fault | draws => exact Eq.trans htu hst

theorem getV_setV_self (s : State) (x : Nibble) (b : Byte) : (s.setV x b).getV x = b := by
  rw [State.getV_setV, if_pos rfl]

theorem onlyRegister_setV (s : State) (x : Nibble) (b : Byte) : s.OnlyRegister x (s.setV x b) :=
  ⟨fun j hj => by rw [State.getV_setV, if_neg hj], changesOnly_setV s x b⟩

theorem onlyRegisterAndFlag_setVThenFlag (s : State) (x : Nibble) (r f : Byte) :
    s.OnlyRegisterAndFlag x (s.setVThenFlag x r f) := by
  refine ⟨fun j hj hflag => ?_, (changesOnly_setV s x r).trans (changesOnly_setV _ VF f)⟩
  rw [getV_setVThenFlag, if_neg hflag, if_neg hj]

/-! ### Meanings that write a result and then the flag (R23) -/

/-- Such an instruction completes with the flag in VF, and with the result in Vx unless the flag took its place. -/
theorem exec_result_then_flag {i : Instr} {s : State} {x : Nibble} {r f : Byte} {result flag : Nat}
    (hexec : exec i s = .next (s.setVThenFlag x r f)) (hflag : f.toNat = flag) (hresult : r.toNat = result) :
    ∃ t, exec i s = .next t ∧ (t.getV 15).toNat = flag ∧ (x ≠ 15 → (t.getV x).toNat = result) ∧
      s.OnlyRegisterAndFlag x t := by
  refine ⟨_, hexec, ?_, fun hx => ?_, onlyRegisterAndFlag_setVThenFlag s x r f⟩
  · rw [getV_setVThenFlag, if_pos rfl, hflag]
  · rw [getV_setVThenFlag, if_neg hx, if_pos rfl, hresult]

/-! ### Addition (R166) -/

theorem exec_op8xy4 (x y : Nibble) (s : State) : exec (.op8xy4 x y) s =
    .next (s.setVThenFlag x ((sum9 (s.getV x) (s.getV y)).setWidth 8) (carryFlag (s.getV x) (s.getV y))) := rfl

/-- Settles O17: the 9-bit sum gives the result in its low bits and the carry in its top bit, both from the old values. -/
theorem addRegisters : Obligations.AddRegisters :=
  ⟨fun x y => decodeWord_8xyN x y 0x4, fun x y s =>
    exec_result_then_flag (exec_op8xy4 x y s) (carryFlag_toNat _ _) (sum9_low_toNat _ _)⟩

/-! ### Subtraction (R167, R169) -/

theorem exec_op8xy5 (x y : Nibble) (s : State) : exec (.op8xy5 x y) s =
    .next (s.setVThenFlag x (s.getV x - s.getV y) (noBorrowFlag (s.getV x) (s.getV y))) := rfl

theorem exec_op8xy7 (x y : Nibble) (s : State) : exec (.op8xy7 x y) s =
    .next (s.setVThenFlag x (s.getV y - s.getV x) (noBorrowFlag (s.getV y) (s.getV x))) := rfl

theorem sub_toNat_mod_256 (m q : Byte) : (m - q).toNat = (m.toNat + 256 - q.toNat) % 256 := by
  rw [BitVec.toNat_sub]
  have := q.isLt
  omega

/-- Settles O18: the two instructions are one subtraction, with minuend and subtrahend exchanged. -/
theorem subtractRegisters : Obligations.SubtractRegisters := by
  refine ⟨fun x y => ⟨decodeWord_8xyN x y 0x5, decodeWord_8xyN x y 0x7⟩, fun x y s => ⟨?_, ?_⟩⟩
  · exact exec_result_then_flag (exec_op8xy5 x y s) (noBorrowFlag_toNat _ _) (sub_toNat_mod_256 _ _)
  · exact exec_result_then_flag (exec_op8xy7 x y s) (noBorrowFlag_toNat _ _) (sub_toNat_mod_256 _ _)

/-! ### Shifts (R168, R170) -/

theorem exec_op8xy6 (x y : Nibble) (s : State) : exec (.op8xy6 x y) s =
    .next (s.setVThenFlag x (s.getV x >>> 1) (lowBitFlag (s.getV x))) := rfl

theorem exec_op8xyE (x y : Nibble) (s : State) : exec (.op8xyE x y) s =
    .next (s.setVThenFlag x (s.getV x <<< 1) (highBitFlag (s.getV x))) := rfl

theorem ushiftRight_one_toNat (a : Byte) : (a >>> 1).toNat = a.toNat / 2 := by
  rw [BitVec.toNat_ushiftRight, Nat.shiftRight_one]

theorem shiftLeft_one_toNat (a : Byte) : (a <<< 1).toNat = 2 * a.toNat % 256 := by
  rw [BitVec.toNat_shiftLeft, Nat.shiftLeft_eq, Nat.mul_comm]

/-- Settles O19: the shift is of Vx, and y is in neither the result nor the flag (R98). -/
theorem shiftRegister : Obligations.ShiftRegister := by
  refine ⟨fun x y => ⟨decodeWord_8xyN x y 0x6, decodeWord_8xyN x y 0xE⟩, fun x y s => ⟨?_, ?_⟩⟩
  · exact exec_result_then_flag (exec_op8xy6 x y s) (lowBitFlag_toNat _) (ushiftRight_one_toNat _)
  · exact exec_result_then_flag (exec_op8xyE x y s) (highBitFlag_toNat _) (shiftLeft_one_toNat _)

/-! ### Load and add immediate (R160, R161) -/

theorem exec_op6xkk (x : Nibble) (kk : Byte) (s : State) : exec (.op6xkk x kk) s = .next (s.setV x kk) := rfl

theorem exec_op7xkk (x : Nibble) (kk : Byte) (s : State) :
    exec (.op7xkk x kk) s = .next (s.setV x (s.getV x + kk)) := rfl

/-- Settles O14: the load is one register write, of the byte of the word itself. -/
theorem loadImmediate : Obligations.LoadImmediate :=
  ⟨decodeWord_6xkk, fun x kk s => ⟨_, exec_op6xkk x kk s, getV_setV_self s x kk, onlyRegister_setV s x kk⟩⟩

/-- Settles O15: addition of bytes is associative, so adding k and then l is adding k + l. -/
theorem addImmediate : Obligations.AddImmediate := by
  refine ⟨decodeWord_7xkk, fun x kk s => ?_, fun x k l m s hm => ?_⟩
  · refine ⟨_, exec_op7xkk x kk s, ?_, onlyRegister_setV s x _⟩
    rw [getV_setV_self, BitVec.toNat_add]
  · have hsum : m = k + l := BitVec.eq_of_toNat_eq (hm.trans (BitVec.toNat_add k l).symm)
    refine ⟨_, _, _, exec_op7xkk x k s, exec_op7xkk x l _, exec_op7xkk x m s, ?_⟩
    rw [getV_setV_self, getV_setV_self, getV_setV_self, hsum, BitVec.add_assoc]

/-! ### Copy and logic (R162 to R165) -/

theorem exec_op8xy0 (x y : Nibble) (s : State) : exec (.op8xy0 x y) s = .next (s.setV x (s.getV y)) := rfl

theorem exec_op8xy1 (x y : Nibble) (s : State) :
    exec (.op8xy1 x y) s = .next (s.setV x (s.getV x ||| s.getV y)) := rfl

theorem exec_op8xy2 (x y : Nibble) (s : State) :
    exec (.op8xy2 x y) s = .next (s.setV x (s.getV x &&& s.getV y)) := rfl

theorem exec_op8xy3 (x y : Nibble) (s : State) :
    exec (.op8xy3 x y) s = .next (s.setV x (s.getV x ^^^ s.getV y)) := rfl

/-- Settles O16: each is one write of Vx, whose bits are those of the old values taken together position by position. -/
theorem copyAndLogic : Obligations.CopyAndLogic := by
  refine ⟨fun x y => ⟨decodeWord_8xyN x y 0x0, decodeWord_8xyN x y 0x1, decodeWord_8xyN x y 0x2,
    decodeWord_8xyN x y 0x3⟩, fun x y s => ⟨?_, ?_, ?_, ?_⟩⟩
  · exact ⟨_, exec_op8xy0 x y s, getV_setV_self s x _, onlyRegister_setV s x _⟩
  · refine ⟨_, exec_op8xy1 x y s, onlyRegister_setV s x _, fun b => ?_⟩
    rw [getV_setV_self, BitVec.getLsbD_or]
  · refine ⟨_, exec_op8xy2 x y s, onlyRegister_setV s x _, fun b => ?_⟩
    rw [getV_setV_self, BitVec.getLsbD_and]
  · refine ⟨_, exec_op8xy3 x y s, onlyRegister_setV s x _, fun b => ?_⟩
    rw [getV_setV_self, BitVec.getLsbD_xor]

end Sys2Proof.Machine
end

section
/-! PROOFS. Index register and memory transfer (spec/43_index_memory.md). -/

namespace Sys2Proof

/-! ### Words of the index instructions (R96) -/

theorem decodeWord_Annn (nnn : Addr12) : decodeWord (0xA#4 ++ nnn) = .ok (.opAnnn nnn) := by
  simp [decodeWord]

theorem decodeWord_Fx1E (x : Nibble) : decodeWord (0xF#4 ++ x ++ 0x1E#8) = .ok (.opFx1E x) := by
  simp [decodeWord, decodeFamilyF]

end Sys2Proof

namespace Sys2Proof.Machine

/-! ### The frame of a write of I (R131) -/

theorem changesOnly_setI (s : State) (w : Word) : s.ChangesOnly [.index] (s.setI w) := by
  intro c hc
  cases c with
  | index => exact absurd List.mem_cons_self hc
  | v | mem => exact fun _ => rfl
  | pc | stack | sp | dt | st | key | fb | dirty | mode | waitx | fault | draws => rfl

/-! ### Load and add (R180, R181) -/

theorem exec_opAnnn (nnn : Addr12) (s : State) : exec (.opAnnn nnn) s = .next (s.setI (address nnn)) := rfl

theorem exec_opFx1E (x : Nibble) (s : State) :
    exec (.opFx1E x) s = .next (s.setI (s.index + widen (s.getV x))) := rfl

/-- Settles O27: each is one write of I, of the zero-extended nnn or of the 16-bit sum; neither writes VF. -/
theorem loadAndAddIndex : Obligations.LoadAndAddIndex := by
  refine ⟨decodeWord_Annn, decodeWord_Fx1E, fun nnn s => ?_, fun x s => ?_⟩
  · exact ⟨_, exec_opAnnn nnn s, address_toNat nnn, changesOnly_setI s _⟩
  · refine ⟨_, exec_opFx1E x s, ?_, changesOnly_setI s _⟩
    rw [State.setI_index, BitVec.toNat_add, widen_toNat]

end Sys2Proof.Machine
end

section
/-! PROOFS. Display (spec/44_display.md). -/

namespace Sys2Proof

/-! ### The word of the clear (R96) -/

theorem decodeWord_00E0 : decodeWord 0x00E0 = .ok .op00E0 := by
  decide

end Sys2Proof

namespace Sys2Proof.Machine

/-! ### The frames of a write of the framebuffer and of the dirty flag (R131) -/

theorem changesOnly_setFb (s : State) (g : Vector (BitVec 64) 32) : s.ChangesOnly [.fb] (s.setFb g) := by
  intro c hc
  cases c with
  | fb => exact absurd List.mem_cons_self hc
  | v | mem => exact fun _ => rfl
  | index | pc | stack | sp | dt | st | key | dirty | mode | waitx | fault | draws => rfl

theorem changesOnly_setDirty (s : State) (d : Bool) : s.ChangesOnly [.dirty] (s.setDirty d) := by
  intro c hc
  cases c with
  | dirty => exact absurd List.mem_cons_self hc
  | v | mem => exact fun _ => rfl
  | index | pc | stack | sp | dt | st | key | fb | mode | waitx | fault | draws => rfl

/-- A frame may be widened, so that frames of different elements can be composed. -/
theorem State.ChangesOnly.mono {s t : State} {may more : List Component} (h : s.ChangesOnly may t) (hsub : may ⊆ more) :
    s.ChangesOnly more t :=
  fun c hc => h c fun hmay => hc (hsub hmay)

/-! ### Clear (R200) -/

theorem exec_op00E0 (s : State) : exec .op00E0 s = .next ((s.setFb (Vector.replicate 32 0)).setDirty true) := rfl

theorem pixel_setFb (s : State) (g : Vector (BitVec 64) 32) {row : Nat} (hrow : row < 32) (col : Nat) :
    (s.setFb g).pixel row col = g[row].getMsbD col :=
  dif_pos hrow

/-- No pixel of the framebuffer of zero rows is lit. -/
theorem pixel_setFb_zero (s : State) {row : Nat} (hrow : row < 32) (col : Nat) :
    (s.setFb (Vector.replicate 32 0)).pixel row col = false := by
  rw [pixel_setFb s _ hrow, Vector.getElem_replicate]
  exact BitVec.getMsbD_zero

/-- Settles O34: the clear writes the framebuffer of zero rows and then the dirty flag, and nothing else. -/
theorem clearDisplay : Obligations.ClearDisplay := by
  refine ⟨decodeWord_00E0, fun s => ⟨_, exec_op00E0 s, fun row col hrow _ => ?_, State.setDirty_dirty _ true, ?_⟩⟩
  · rw [State.setDirty_pixel, pixel_setFb_zero s hrow]
  · have hfb := (changesOnly_setFb s (Vector.replicate 32 0)).mono (more := [.fb, .dirty]) (by simp)
    exact hfb.trans ((changesOnly_setDirty _ true).mono (by simp))

end Sys2Proof.Machine
end

section
/-! PROOFS. Keypad (spec/45_keypad.md). -/

namespace Sys2Proof.Machine

/-! ### The frame of a write of the keypad latch (R131) -/

theorem changesOnly_setKey (s : State) (keys : Vector Bool 16) : s.ChangesOnly [.key] (s.setKey keys) := by
  intro c hc
  cases c with
  | key => exact absurd List.mem_cons_self hc
  | v | mem => exact fun _ => rfl
  | index | pc | stack | sp | dt | st | fb | dirty | mode | waitx | fault | draws => rfl

/-! ### The latch operation (R226) -/

theorem operate_setKeys (keys : Vector Bool 16) (s : State) :
    operate (.setKeys keys) s = .next (s.setKey keys, .done) := rfl

/-- Settles O40: the operation is one write of the whole latch, whatever the mode. -/
theorem setKeysOverwritesTheLatch : Obligations.SetKeysOverwritesTheLatch := by
  refine fun keys s => ⟨_, operate_setKeys keys s, fun k hk => ?_, changesOnly_setKey s keys⟩
  simp only [State.setKey_key]

end Sys2Proof.Machine
end

section
/-! PROOFS. Timers (spec/46_timers_random.md). -/

namespace Sys2Proof

/-! ### Words of the timer instructions (R96) -/

theorem decodeWord_Fx07 (x : Nibble) : decodeWord (0xF#4 ++ x ++ 0x07#8) = .ok (.opFx07 x) := by
  simp [decodeWord, decodeFamilyF]

theorem decodeWord_Fx15 (x : Nibble) : decodeWord (0xF#4 ++ x ++ 0x15#8) = .ok (.opFx15 x) := by
  simp [decodeWord, decodeFamilyF]

theorem decodeWord_Fx18 (x : Nibble) : decodeWord (0xF#4 ++ x ++ 0x18#8) = .ok (.opFx18 x) := by
  simp [decodeWord, decodeFamilyF]

end Sys2Proof

namespace Sys2Proof.Machine

/-! ### The frames of a write of a timer (R131) -/

theorem changesOnly_setDt (s : State) (b : Byte) : s.ChangesOnly [.dt] (s.setDt b) := by
  intro c hc
  cases c with
  | dt => exact absurd List.mem_cons_self hc
  | v | mem => exact fun _ => rfl
  | index | pc | stack | sp | st | key | fb | dirty | mode | waitx | fault | draws => rfl

theorem changesOnly_setSt (s : State) (b : Byte) : s.ChangesOnly [.st] (s.setSt b) := by
  intro c hc
  cases c with
  | st => exact absurd List.mem_cons_self hc
  | v | mem => exact fun _ => rfl
  | index | pc | stack | sp | dt | key | fb | dirty | mode | waitx | fault | draws => rfl

/-! ### The timer moves (R240 to R242) -/

theorem exec_opFx07 (x : Nibble) (s : State) : exec (.opFx07 x) s = .next (s.setV x s.dt) := rfl

theorem exec_opFx15 (x : Nibble) (s : State) : exec (.opFx15 x) s = .next (s.setDt (s.getV x)) := rfl

theorem exec_opFx18 (x : Nibble) (s : State) : exec (.opFx18 x) s = .next (s.setSt (s.getV x)) := rfl

/-- Settles O41: each is one write, of Vx or of one timer, and a write of a timer leaves the other timer alone. -/
theorem timerMoves : Obligations.TimerMoves := by
  refine ⟨fun x => ⟨decodeWord_Fx07 x, decodeWord_Fx15 x, decodeWord_Fx18 x⟩, fun x s => ⟨?_, ?_, ?_⟩⟩
  · exact ⟨_, exec_opFx07 x s, getV_setV_self s x s.dt, onlyRegister_setV s x s.dt⟩
  · exact ⟨_, exec_opFx15 x s, State.setDt_dt s (s.getV x), changesOnly_setDt s (s.getV x)⟩
  · exact ⟨_, exec_opFx18 x s, State.setSt_st s (s.getV x), changesOnly_setSt s (s.getV x)⟩

end Sys2Proof.Machine
end

section
/-! PROOFS. Encoding: the decoder, the encoder and the opcode table agree (spec/30_encoding.md). -/

namespace Sys2Proof

/-! ### Words of the other instructions (R96) -/

theorem decodeWord_00EE : decodeWord 0x00EE = .ok .op00EE := by
  decide

theorem decodeWord_2nnn (nnn : Addr12) : decodeWord (0x2#4 ++ nnn) = .ok (.op2nnn nnn) := by
  simp [decodeWord]

theorem decodeWord_Bnnn (nnn : Addr12) : decodeWord (0xB#4 ++ nnn) = .ok (.opBnnn nnn) := by
  simp [decodeWord]

theorem decodeWord_Cxkk (x : Nibble) (kk : Byte) : decodeWord (0xC#4 ++ x ++ kk) = .ok (.opCxkk x kk) := by
  simp [decodeWord]

theorem decodeWord_Dxyn (x y n : Nibble) : decodeWord (0xD#4 ++ x ++ y ++ n) = .ok (.opDxyn x y n) := by
  simp [decodeWord]

/-- The words of family E, the low byte telling them apart (R97). -/
theorem decodeWord_Exkk (x : Nibble) (kk : Byte) : decodeWord (0xE#4 ++ x ++ kk) =
    if kk = 0x9E then .ok (.opEx9E x) else if kk = 0xA1 then .ok (.opExA1 x)
    else .error (.unknownOpcode (0xE#4 ++ x ++ kk)) := by
  simp [decodeWord, decodeFamilyE]

theorem decodeWord_Fx0A (x : Nibble) : decodeWord (0xF#4 ++ x ++ 0x0A#8) = .ok (.opFx0A x) := by
  simp [decodeWord, decodeFamilyF]

theorem decodeWord_Fx29 (x : Nibble) : decodeWord (0xF#4 ++ x ++ 0x29#8) = .ok (.opFx29 x) := by
  simp [decodeWord, decodeFamilyF]

theorem decodeWord_Fx33 (x : Nibble) : decodeWord (0xF#4 ++ x ++ 0x33#8) = .ok (.opFx33 x) := by
  simp [decodeWord, decodeFamilyF]

theorem decodeWord_Fx55 (x : Nibble) : decodeWord (0xF#4 ++ x ++ 0x55#8) = .ok (.opFx55 x) := by
  simp [decodeWord, decodeFamilyF]

theorem decodeWord_Fx65 (x : Nibble) : decodeWord (0xF#4 ++ x ++ 0x65#8) = .ok (.opFx65 x) := by
  simp [decodeWord, decodeFamilyF]

/-! ### Decoding undoes encoding, and encoding undoes decoding -/

theorem decodeWord_encode (i : Instr) : decodeWord (encode i) = .ok i := by
  cases i with
  | op00E0 => exact decodeWord_00E0
  | op00EE => exact decodeWord_00EE
  | op1nnn nnn => exact decodeWord_1nnn nnn
  | op2nnn nnn => exact decodeWord_2nnn nnn
  | op3xkk x kk => exact decodeWord_3xkk x kk
  | op4xkk x kk => exact decodeWord_4xkk x kk
  | op5xy0 x y => exact decodeWord_5xyN x y 0x0
  | op6xkk x kk => exact decodeWord_6xkk x kk
  | op7xkk x kk => exact decodeWord_7xkk x kk
  | op8xy0 x y => exact decodeWord_8xyN x y 0x0
  | op8xy1 x y => exact decodeWord_8xyN x y 0x1
  | op8xy2 x y => exact decodeWord_8xyN x y 0x2
  | op8xy3 x y => exact decodeWord_8xyN x y 0x3
  | op8xy4 x y => exact decodeWord_8xyN x y 0x4
  | op8xy5 x y => exact decodeWord_8xyN x y 0x5
  | op8xy6 x y => exact decodeWord_8xyN x y 0x6
  | op8xy7 x y => exact decodeWord_8xyN x y 0x7
  | op8xyE x y => exact decodeWord_8xyN x y 0xE
  | op9xy0 x y => exact decodeWord_9xyN x y 0x0
  | opAnnn nnn => exact decodeWord_Annn nnn
  | opBnnn nnn => exact decodeWord_Bnnn nnn
  | opCxkk x kk => exact decodeWord_Cxkk x kk
  | opDxyn x y n => exact decodeWord_Dxyn x y n
  | opEx9E x => exact decodeWord_Exkk x 0x9E
  | opExA1 x => exact decodeWord_Exkk x 0xA1
  | opFx07 x => exact decodeWord_Fx07 x
  | opFx0A x => exact decodeWord_Fx0A x
  | opFx15 x => exact decodeWord_Fx15 x
  | opFx18 x => exact decodeWord_Fx18 x
  | opFx1E x => exact decodeWord_Fx1E x
  | opFx29 x => exact decodeWord_Fx29 x
  | opFx33 x => exact decodeWord_Fx33 x
  | opFx55 x => exact decodeWord_Fx55 x
  | opFx65 x => exact decodeWord_Fx65 x

/-- Settles O1: the two bytes put back together are the encoded word, which decodes to the instruction. -/
theorem decodeOfEncodeIsTheInstruction : Obligations.DecodeOfEncodeIsTheInstruction := by
  intro i rest
  simp only [encodeBytes, List.cons_append, List.nil_append, decode]
  rw [wordOfBytes_encodeBytes, decodeWord_encode]
  rfl

theorem nnn_of_fieldOp {op : Nibble} {w : Word} (hop : fieldOp w = op) : op ++ fieldNNN w = w :=
  hop ▸ nnn_eta w

theorem xkk_of_fieldOp_fieldKK {op : Nibble} {kk : Byte} {w : Word} (hop : fieldOp w = op) (hkk : fieldKK w = kk) :
    op ++ fieldX w ++ kk = w :=
  hop ▸ hkk ▸ xkk_eta w

theorem nibbles_of_fieldOp_fieldN {op n : Nibble} {w : Word} (hop : fieldOp w = op) (hn : fieldN w = n) :
    op ++ fieldX w ++ fieldY w ++ n = w :=
  hop ▸ hn ▸ nibbles_eta w

/-- The operands and the fixed bits that `DecodesTo` names are all the bits of the word, in every format of R92. -/
theorem encode_of_decodesTo {w : Word} {i : Instr} (h : DecodesTo w i) : encode i = w := by
  cases i with
  | op00E0 | op00EE => exact Eq.symm h
  | op1nnn | op2nnn | opAnnn | opBnnn =>
    obtain ⟨hop, rfl⟩ := h
    exact nnn_of_fieldOp hop
  | op3xkk | op4xkk | op6xkk | op7xkk | opCxkk =>
    obtain ⟨hop, rfl, rfl⟩ := h
    exact xkk_of_fieldOp_fieldKK hop rfl
  | op5xy0 | op8xy0 | op8xy1 | op8xy2 | op8xy3 | op8xy4 | op8xy5 | op8xy6 | op8xy7 | op8xyE | op9xy0 =>
    obtain ⟨hop, hn, rfl, rfl⟩ := h
    exact nibbles_of_fieldOp_fieldN hop hn
  | opDxyn =>
    obtain ⟨hop, rfl, rfl, rfl⟩ := h
    exact nibbles_of_fieldOp_fieldN hop rfl
  | opEx9E | opExA1 | opFx07 | opFx0A | opFx15 | opFx18 | opFx1E | opFx29 | opFx33 | opFx55 | opFx65 =>
    obtain ⟨hop, hkk, rfl⟩ := h
    exact xkk_of_fieldOp_fieldKK hop hkk

theorem decodeWord_eq_ok_iff {w : Word} {i : Instr} : decodeWord w = .ok i ↔ DecodesTo w i :=
  ⟨decodeWord_ok, fun h => encode_of_decodesTo h ▸ decodeWord_encode i⟩

/-- Settles O2: the decoder takes an instruction apart into all the bits of its word. -/
theorem encodeOfDecodeIsTheWord : Obligations.EncodeOfDecodeIsTheWord :=
  fun _ _ h => encode_of_decodesTo (decodeWord_ok h)

/-- Settles O5: each word is closed, and the decoder evaluates it. -/
theorem sampleWordsDecode : Obligations.SampleWordsDecode := by
  unfold Obligations.SampleWordsDecode
  decide

/-! ### The unknown words (R100) -/

theorem decodeFamily0_unknown_iff {w : Word} (hop : fieldOp w = 0x0#4) :
    decodeFamily0 w = .error (.unknownOpcode w) ↔ fieldNNN w ≠ 0x0E0 ∧ fieldNNN w ≠ 0x0EE := by
  have hword (nnn : Addr12) : w = 0x0#4 ++ nnn ↔ fieldNNN w = nnn :=
    ⟨fun h => h ▸ fieldNNN_nnn _ _, fun h => h ▸ (nnn_of_fieldOp hop).symm⟩
  have hclear : w = 0x00E0#16 ↔ fieldNNN w = 0x0E0#12 := hword 0x0E0
  have hreturn : w = 0x00EE#16 ↔ fieldNNN w = 0x0EE#12 := hword 0x0EE
  simp only [decodeFamily0, hclear, hreturn]
  split_ifs <;> simp [*]

theorem decodeFamily8_unknown_iff (w : Word) : decodeFamily8 w = .error (.unknownOpcode w) ↔
    fieldN w ∈ [0x8#4, 0x9#4, 0xA#4, 0xB#4, 0xC#4, 0xD#4, 0xF#4] := by
  have hcomplement : ∀ n : Nibble, n ∈ [0x8#4, 0x9#4, 0xA#4, 0xB#4, 0xC#4, 0xD#4, 0xF#4] ↔
      n ∉ [0x0#4, 0x1#4, 0x2#4, 0x3#4, 0x4#4, 0x5#4, 0x6#4, 0x7#4, 0xE#4] := by decide
  rw [hcomplement, decodeFamily8]
  split_ifs <;> simp [*]

theorem decodeFamilyE_unknown_iff (w : Word) :
    decodeFamilyE w = .error (.unknownOpcode w) ↔ fieldKK w ∉ [0x9E#8, 0xA1#8] := by
  rw [decodeFamilyE]
  split_ifs <;> simp [*]

theorem decodeFamilyF_unknown_iff (w : Word) : decodeFamilyF w = .error (.unknownOpcode w) ↔
    fieldKK w ∉ [0x07#8, 0x0A#8, 0x15#8, 0x18#8, 0x1E#8, 0x29#8, 0x33#8, 0x55#8, 0x65#8] := by
  rw [decodeFamilyF]
  split_ifs <;> simp [*]

/-- The complete list of R100, family by family: the other ten families hold no unknown word. -/
theorem decodeWord_unknown_iff (w : Word) : decodeWord w = .error (.unknownOpcode w) ↔
    (fieldOp w = 0x0 ∧ fieldNNN w ≠ 0x0E0 ∧ fieldNNN w ≠ 0x0EE) ∨
    (fieldOp w = 0x5 ∧ fieldN w ≠ 0x0) ∨
    (fieldOp w = 0x8 ∧ fieldN w ∈ [0x8#4, 0x9#4, 0xA#4, 0xB#4, 0xC#4, 0xD#4, 0xF#4]) ∨
    (fieldOp w = 0x9 ∧ fieldN w ≠ 0x0) ∨
    (fieldOp w = 0xE ∧ fieldKK w ∉ [0x9E#8, 0xA1#8]) ∨
    (fieldOp w = 0xF ∧ fieldKK w ∉ [0x07#8, 0x0A#8, 0x15#8, 0x18#8, 0x1E#8, 0x29#8, 0x33#8, 0x55#8, 0x65#8]) := by
  have hfamilies : ∀ op : Nibble, op = 0x0 ∨ op ∈ [0x1#4, 0x2, 0x3, 0x4, 0x6, 0x7, 0xA, 0xB, 0xC, 0xD] ∨ op = 0x5 ∨
      op = 0x8 ∨ op = 0x9 ∨ op = 0xE ∨ op = 0xF := by decide
  rcases hfamilies (fieldOp w) with h | h | h | h | h | h | h
  · rw [show decodeWord w = decodeFamily0 w by simp [decodeWord, h], decodeFamily0_unknown_iff h]
    simp [h]
  · simp only [List.mem_cons, List.not_mem_nil, or_false] at h
    rcases h with h | h | h | h | h | h | h | h | h | h <;> simp [decodeWord, h]
  · simp [decodeWord, h]
  · rw [show decodeWord w = decodeFamily8 w by simp [decodeWord, h], decodeFamily8_unknown_iff]
    simp [h]
  · simp [decodeWord, h]
  · rw [show decodeWord w = decodeFamilyE w by simp [decodeWord, h], decodeFamilyE_unknown_iff]
    simp [h]
  · rw [show decodeWord w = decodeFamilyF w by simp [decodeWord, h], decodeFamilyF_unknown_iff]
    simp [h]

/-! ### The opcode table (R94, R96) -/

/-- The row that bears an instruction's mnemonic fits its word. -/
theorem fits_own_row (i : Instr) : ∃ r ∈ opcodeTable, r.mnemonic = i.raw.mnemonic ∧ r.fits (encode i) = true := by
  cases i with
  | op00E0 => exact Laws.TableRow.op00E0
  | op00EE => exact Laws.TableRow.op00EE
  | op1nnn nnn => exact Laws.TableRow.op1nnn nnn
  | op2nnn nnn => exact Laws.TableRow.op2nnn nnn
  | op3xkk x kk => exact Laws.TableRow.op3xkk x kk
  | op4xkk x kk => exact Laws.TableRow.op4xkk x kk
  | op5xy0 x y => exact Laws.TableRow.op5xy0 x y
  | op6xkk x kk => exact Laws.TableRow.op6xkk x kk
  | op7xkk x kk => exact Laws.TableRow.op7xkk x kk
  | op8xy0 x y => exact Laws.TableRow.op8xy0 x y
  | op8xy1 x y => exact Laws.TableRow.op8xy1 x y
  | op8xy2 x y => exact Laws.TableRow.op8xy2 x y
  | op8xy3 x y => exact Laws.TableRow.op8xy3 x y
  | op8xy4 x y => exact Laws.TableRow.op8xy4 x y
  | op8xy5 x y => exact Laws.TableRow.op8xy5 x y
  | op8xy6 x y => exact Laws.TableRow.op8xy6 x y
  | op8xy7 x y => exact Laws.TableRow.op8xy7 x y
  | op8xyE x y => exact Laws.TableRow.op8xyE x y
  | op9xy0 x y => exact Laws.TableRow.op9xy0 x y
  | opAnnn nnn => exact Laws.TableRow.opAnnn nnn
  | opBnnn nnn => exact Laws.TableRow.opBnnn nnn
  | opCxkk x kk => exact Laws.TableRow.opCxkk x kk
  | opDxyn x y n => exact Laws.TableRow.opDxyn x y n
  | opEx9E x => exact Laws.TableRow.opEx9E x
  | opExA1 x => exact Laws.TableRow.opExA1 x
  | opFx07 x => exact Laws.TableRow.opFx07 x
  | opFx0A x => exact Laws.TableRow.opFx0A x
  | opFx15 x => exact Laws.TableRow.opFx15 x
  | opFx18 x => exact Laws.TableRow.opFx18 x
  | opFx1E x => exact Laws.TableRow.opFx1E x
  | opFx29 x => exact Laws.TableRow.opFx29 x
  | opFx33 x => exact Laws.TableRow.opFx33 x
  | opFx55 x => exact Laws.TableRow.opFx55 x
  | opFx65 x => exact Laws.TableRow.opFx65 x

theorem fits_iff (r : OpcodeRow) (w : Word) : r.fits w = true ↔ w &&& r.mask = r.value := beq_iff_eq

/-- A row under the mask F000 fixes the family. -/
theorem fieldOp_of_mask {v w : Word} (h : w &&& 0xF000#16 = v) : fieldOp w = fieldOp v := by
  rw [← h, ← nnn_eta w, mask_op_nnn, fieldOp_nnn, fieldOp_nnn]

/-- A row under the mask F00F fixes the family and the last nibble. -/
theorem fieldOp_fieldN_of_mask {v w : Word} (h : w &&& 0xF00F#16 = v) : fieldOp w = fieldOp v ∧ fieldN w = fieldN v := by
  rw [← h, ← nibbles_eta w, mask_xy, fieldOp_nibbles, fieldOp_nibbles, fieldN_nibbles, fieldN_nibbles]
  exact ⟨rfl, rfl⟩

/-- A row under the mask F0FF fixes the family and the low byte. -/
theorem fieldOp_fieldKK_of_mask {v w : Word} (h : w &&& 0xF0FF#16 = v) :
    fieldOp w = fieldOp v ∧ fieldKK w = fieldKK v := by
  rw [← h, ← xkk_eta w, mask_x, fieldOp_xkk, fieldOp_xkk, fieldKK_xkk, fieldKK_xkk]
  exact ⟨rfl, rfl⟩

/-- A word that fits a row stands for an instruction: the row's fixed bits choose it, the word's fields are its
operands. -/
theorem exists_decodesTo_of_fits {r : OpcodeRow} {w : Word} (hr : r ∈ opcodeTable) (hfits : r.fits w = true) :
    ∃ i, DecodesTo w i := by
  rw [fits_iff] at hfits
  simp only [opcodeTable, List.cons_append, List.nil_append, List.mem_cons, List.not_mem_nil, or_false] at hr
  rcases hr with rfl | rfl | rfl | rfl | rfl | rfl | rfl | rfl | rfl | rfl | rfl | rfl | rfl | rfl | rfl | rfl | rfl |
    rfl | rfl | rfl | rfl | rfl | rfl | rfl | rfl | rfl | rfl | rfl | rfl | rfl | rfl | rfl | rfl | rfl
  · exact ⟨.op00E0, BitVec.and_allOnes.symm.trans hfits⟩
  · exact ⟨.op00EE, BitVec.and_allOnes.symm.trans hfits⟩
  · exact ⟨.op1nnn _, fieldOp_of_mask hfits, rfl⟩
  · exact ⟨.op2nnn _, fieldOp_of_mask hfits, rfl⟩
  · exact ⟨.op3xkk _ _, fieldOp_of_mask hfits, rfl, rfl⟩
  · exact ⟨.op4xkk _ _, fieldOp_of_mask hfits, rfl, rfl⟩
  · exact ⟨.op5xy0 _ _, and_assoc.mp ⟨fieldOp_fieldN_of_mask hfits, rfl, rfl⟩⟩
  · exact ⟨.op6xkk _ _, fieldOp_of_mask hfits, rfl, rfl⟩
  · exact ⟨.op7xkk _ _, fieldOp_of_mask hfits, rfl, rfl⟩
  · exact ⟨.op8xy0 _ _, and_assoc.mp ⟨fieldOp_fieldN_of_mask hfits, rfl, rfl⟩⟩
  · exact ⟨.op8xy1 _ _, and_assoc.mp ⟨fieldOp_fieldN_of_mask hfits, rfl, rfl⟩⟩
  · exact ⟨.op8xy2 _ _, and_assoc.mp ⟨fieldOp_fieldN_of_mask hfits, rfl, rfl⟩⟩
  · exact ⟨.op8xy3 _ _, and_assoc.mp ⟨fieldOp_fieldN_of_mask hfits, rfl, rfl⟩⟩
  · exact ⟨.op8xy4 _ _, and_assoc.mp ⟨fieldOp_fieldN_of_mask hfits, rfl, rfl⟩⟩
  · exact ⟨.op8xy5 _ _, and_assoc.mp ⟨fieldOp_fieldN_of_mask hfits, rfl, rfl⟩⟩
  · exact ⟨.op8xy6 _ _, and_assoc.mp ⟨fieldOp_fieldN_of_mask hfits, rfl, rfl⟩⟩
  · exact ⟨.op8xy7 _ _, and_assoc.mp ⟨fieldOp_fieldN_of_mask hfits, rfl, rfl⟩⟩
  · exact ⟨.op8xyE _ _, and_assoc.mp ⟨fieldOp_fieldN_of_mask hfits, rfl, rfl⟩⟩
  · exact ⟨.op9xy0 _ _, and_assoc.mp ⟨fieldOp_fieldN_of_mask hfits, rfl, rfl⟩⟩
  · exact ⟨.opAnnn _, fieldOp_of_mask hfits, rfl⟩
  · exact ⟨.opBnnn _, fieldOp_of_mask hfits, rfl⟩
  · exact ⟨.opCxkk _ _, fieldOp_of_mask hfits, rfl, rfl⟩
  · exact ⟨.opDxyn _ _ _, fieldOp_of_mask hfits, rfl, rfl, rfl⟩
  · exact ⟨.opEx9E _, and_assoc.mp ⟨fieldOp_fieldKK_of_mask hfits, rfl⟩⟩
  · exact ⟨.opExA1 _, and_assoc.mp ⟨fieldOp_fieldKK_of_mask hfits, rfl⟩⟩
  · exact ⟨.opFx07 _, and_assoc.mp ⟨fieldOp_fieldKK_of_mask hfits, rfl⟩⟩
  · exact ⟨.opFx0A _, and_assoc.mp ⟨fieldOp_fieldKK_of_mask hfits, rfl⟩⟩
  · exact ⟨.opFx15 _, and_assoc.mp ⟨fieldOp_fieldKK_of_mask hfits, rfl⟩⟩
  · exact ⟨.opFx18 _, and_assoc.mp ⟨fieldOp_fieldKK_of_mask hfits, rfl⟩⟩
  · exact ⟨.opFx1E _, and_assoc.mp ⟨fieldOp_fieldKK_of_mask hfits, rfl⟩⟩
  · exact ⟨.opFx29 _, and_assoc.mp ⟨fieldOp_fieldKK_of_mask hfits, rfl⟩⟩
  · exact ⟨.opFx33 _, and_assoc.mp ⟨fieldOp_fieldKK_of_mask hfits, rfl⟩⟩
  · exact ⟨.opFx55 _, and_assoc.mp ⟨fieldOp_fieldKK_of_mask hfits, rfl⟩⟩
  · exact ⟨.opFx65 _, and_assoc.mp ⟨fieldOp_fieldKK_of_mask hfits, rfl⟩⟩

/-- No word fits two rows: where both masks look, the rows differ (R94). -/
theorem mnemonic_eq_of_fits {r q : OpcodeRow} {w : Word} (hr : r ∈ opcodeTable) (hq : q ∈ opcodeTable)
    (hfr : r.fits w = true) (hfq : q.fits w = true) : r.mnemonic = q.mnemonic := by
  have hdisjoint : ∀ r ∈ opcodeTable, ∀ q ∈ opcodeTable,
      r.value &&& q.mask = q.value &&& r.mask → r.mnemonic = q.mnemonic := by decide
  refine hdisjoint r hr q hq ?_
  rw [← (fits_iff r w).mp hfr, ← (fits_iff q w).mp hfq, BitVec.and_assoc, BitVec.and_assoc, BitVec.and_comm r.mask]

/-- The rows of the table have different mnemonics. -/
theorem row_eq_of_mnemonic_eq {r q : OpcodeRow} (hr : r ∈ opcodeTable) (hq : q ∈ opcodeTable)
    (h : r.mnemonic = q.mnemonic) : r = q := by
  have hdistinct : ∀ r ∈ opcodeTable, ∀ q ∈ opcodeTable, r.mnemonic = q.mnemonic → r = q := by decide
  exact hdistinct r hr q hq h

/-- Settles O4: an instruction's word fits its own row, and no word fits two rows. -/
theorem decoderAgreesWithTheOpcodeTable : Obligations.DecoderAgreesWithTheOpcodeTable := by
  refine ⟨fun w => ⟨?_, ?_⟩, fun w i hd r hr => ?_⟩
  · rintro ⟨i, hd⟩
    obtain ⟨r, hr, -, hfits⟩ := fits_own_row i
    exact ⟨r, hr, encode_of_decodesTo (decodeWord_ok hd) ▸ hfits⟩
  · rintro ⟨r, hr, hfits⟩
    obtain ⟨i, hi⟩ := exists_decodesTo_of_fits hr hfits
    exact ⟨i, decodeWord_eq_ok_iff.mpr hi⟩
  · obtain ⟨q, hq, hmn, hfits⟩ := fits_own_row i
    rw [encode_of_decodesTo (decodeWord_ok hd)] at hfits
    constructor
    · intro hfr
      exact (mnemonic_eq_of_fits hr hq hfr hfits).trans hmn
    · intro hrm
      exact row_eq_of_mnemonic_eq hr hq (hrm.trans hmn.symm) ▸ hfits

end Sys2Proof
end

section
/-! PROOFS. Memory: its canonical form, and the checks of a run of addresses (spec/20_memory.md). -/

namespace Sys2Proof.Machine

/-! ### The canonical form determines the list -/

/-- Below the lowest listed address memory reads as reset left it. -/
theorem Memory.get_of_wfFrom {m : Memory} {lo a : Nat} (hwf : Memory.wfFrom lo m = true) (ha : a < lo) :
    Memory.get m a = unlistedByte a := by
  induction m generalizing lo with
  | nil => exact Memory.get_nil a
  | cons c m ih =>
    obtain ⟨hlo, -, -, htail⟩ := (Memory.wfFrom_cons _ _ _).mp hwf
    rw [Memory.get_cons, if_neg (by omega)]
    exact ih htail (by omega)

/-- The lowest listed address does not read as reset left it. -/
theorem Memory.get_head_ne {c : Host.Cell} {m : Memory} {lo : Nat} (hwf : Memory.wfFrom lo (c :: m) = true) :
    Memory.get (c :: m) c.1 ≠ unlistedByte c.1 := by
  obtain ⟨-, -, hlisted, -⟩ := (Memory.wfFrom_cons _ _ _).mp hwf
  rwa [Memory.get_cons, if_pos rfl]

/-- So a canonical memory that reads alike lists no higher lowest address. -/
theorem Memory.head_le_of_get_eq {c d : Host.Cell} {m m' : Memory} {lo : Nat} (hwf : Memory.wfFrom lo (c :: m) = true)
    (hwf' : Memory.wfFrom lo (d :: m') = true) (hread : ∀ a, Memory.get (c :: m) a = Memory.get (d :: m') a) :
    d.1 ≤ c.1 := by
  by_contra hlt
  obtain ⟨-, hrest⟩ := (Memory.wfFrom_cons _ _ _).mp hwf'
  have hfrom : Memory.wfFrom d.1 (d :: m') = true := (Memory.wfFrom_cons _ _ _).mpr ⟨le_refl d.1, hrest⟩
  exact Memory.get_head_ne hwf ((hread c.1).trans (Memory.get_of_wfFrom hfrom (by omega)))

theorem Memory.ext_of_wfFrom {m m' : Memory} {lo : Nat} (hwf : Memory.wfFrom lo m = true)
    (hwf' : Memory.wfFrom lo m' = true) (hread : ∀ a, Memory.get m a = Memory.get m' a) : m = m' := by
  induction m generalizing lo m' with
  | nil =>
    cases m' with
    | nil => rfl
    | cons d m' => exact absurd (hread d.1).symm (Memory.get_head_ne hwf')
  | cons c m ih =>
    cases m' with
    | nil => exact absurd (hread c.1) (Memory.get_head_ne hwf)
    | cons d m' =>
      have haddr : c.1 = d.1 := le_antisymm (Memory.head_le_of_get_eq hwf' hwf fun a => (hread a).symm)
        (Memory.head_le_of_get_eq hwf hwf' hread)
      have hbyte := hread c.1
      rw [Memory.get_cons, Memory.get_cons, if_pos rfl, if_pos haddr] at hbyte
      obtain rfl : c = d := Prod.ext haddr hbyte
      obtain ⟨-, -, -, htail⟩ := (Memory.wfFrom_cons _ _ _).mp hwf
      obtain ⟨-, -, -, htail'⟩ := (Memory.wfFrom_cons _ _ _).mp hwf'
      rw [ih htail htail' fun a => ?_]
      by_cases ha : a = c.1
      · rw [Memory.get_of_wfFrom htail (by omega), Memory.get_of_wfFrom htail' (by omega)]
      · simpa [Memory.get_cons, ha] using hread a

/-- Settles O53: cell by cell from the lowest address on, the reads tell which address is listed next and its byte. -/
theorem canonicalMemoriesAreEqual : Obligations.CanonicalMemoriesAreEqual :=
  fun _ _ hwf hwf' hread => Memory.ext_of_wfFrom hwf hwf' hread

/-! ### The checks of a run of addresses (R62 to R64) -/

/-- A run of reads passes exactly when it is empty or ends inside memory; else the lowest address above 0xFFF fails. -/
theorem firstFault_readFault (base len : Nat) : firstFault readFault base len =
    if len = 0 ∨ base + len ≤ 4096 then none else some (.memoryOutOfRange, max base 4096) := by
  cases hf : firstFault readFault base len with
  | none =>
    rw [firstFault_none_iff] at hf
    have hlast := hf (len - 1)
    rw [readFault_none_iff] at hlast
    rw [if_pos (by omega)]
  | some f =>
    obtain ⟨k, hk, hfail, hlow⟩ := firstFault_some hf
    obtain ⟨hhigh, rfl⟩ := (readFault_some_iff _ _).mp hfail
    have hprev := hlow (k - 1)
    rw [readFault_none_iff] at hprev
    rw [if_neg (by omega), show base + k = max base 4096 by omega]

/-- A run of stores passes exactly when it lies above the font and ends inside memory; else the lowest bad address fails:
the first one if it is in the font. -/
theorem firstFault_writeFault {base len : Nat} (hlen : 0 < len) : firstFault writeFault base len =
    if base < 80 then some (.fontWriteFault, base)
    else if base + len ≤ 4096 then none else some (.memoryOutOfRange, max base 4096) := by
  cases hf : firstFault writeFault base len with
  | none =>
    rw [firstFault_none_iff] at hf
    have hfirst := hf 0
    have hlast := hf (len - 1)
    rw [writeFault_none_iff] at hfirst hlast
    rw [if_neg (by omega), if_pos (by omega)]
  | some f =>
    obtain ⟨k, hk, hfail, hlow⟩ := firstFault_some hf
    have hfirst := hlow 0
    have hprev := hlow (k - 1)
    rw [writeFault_none_iff] at hfirst hprev
    rcases (writeFault_some_iff _ _).mp hfail with ⟨hhigh, rfl⟩ | ⟨hfont, rfl⟩
    · rw [if_neg (by omega), if_neg (by omega), show base + k = max base 4096 by omega]
    · rw [if_pos (by omega), show base + k = base by omega]

theorem firstFault_readFault_eq_none (base len : Nat) :
    firstFault readFault base len = none ↔ len = 0 ∨ base + len ≤ 4096 := by
  rw [firstFault_readFault]
  split
  case isTrue hpass => exact iff_of_true rfl hpass
  case isFalse hfail => exact iff_of_false (Option.some_ne_none _) hfail

theorem firstFault_writeFault_eq_none {base len : Nat} (hlen : 0 < len) :
    firstFault writeFault base len = none ↔ 80 ≤ base ∧ base + len ≤ 4096 := by
  rw [firstFault_writeFault hlen]
  split_ifs <;> simp <;> omega

end Sys2Proof.Machine
end

section
/-! PROOFS. One normal form for all meanings: an instruction meets its fault or has its effect
(spec/40_fetch_decode_dispatch.md R131, spec/60_exceptions.md). `State.faultOf` and `State.effectOf` are tied to the
model by `exec_eq_guarded`; what holds of every instruction is proved of the two. -/

namespace Sys2Proof.Machine

/-! ### The frames of the other updates (R131) -/

/-- Frames of successive updates add up. -/
theorem State.ChangesOnly.append {s t u : State} {may more : List Component} (hst : s.ChangesOnly may t)
    (htu : t.ChangesOnly more u) : s.ChangesOnly (may ++ more) u :=
  (hst.mono (List.subset_append_left _ _)).trans (htu.mono (List.subset_append_right _ _))

theorem changesOnly_refl (s : State) (may : List Component) : s.ChangesOnly may s := by
  intro c _
  cases c with
  | v | mem => exact fun _ => rfl
  | index | pc | stack | sp | dt | st | key | fb | dirty | mode | waitx | fault | draws => rfl

theorem changesOnly_setVs (s : State) (v : Vector Byte 16) : s.ChangesOnly [.v] (s.setVs v) := by
  intro c hc
  cases c with
  | v => exact absurd List.mem_cons_self hc
  | mem => exact fun _ => rfl
  | index | pc | stack | sp | dt | st | key | fb | dirty | mode | waitx | fault | draws => rfl

theorem changesOnly_setStack (s : State) (k : Vector Word 16) (p : Fin 17) :
    s.ChangesOnly [.stack, .sp] (s.setStack k p) := by
  intro c hc
  cases c with
  | stack | sp => simp at hc
  | v | mem => exact fun _ => rfl
  | index | pc | dt | st | key | fb | dirty | mode | waitx | fault | draws => rfl

theorem changesOnly_setSp (s : State) (p : Fin 17) : s.ChangesOnly [.sp] (s.setStack s.stack p) := by
  intro c hc
  cases c with
  | sp => exact absurd List.mem_cons_self hc
  | v | mem => exact fun _ => rfl
  | index | pc | stack | dt | st | key | fb | dirty | mode | waitx | fault | draws => rfl

theorem changesOnly_storeBytes (s : State) (a : Nat) (bs : List Byte) : s.ChangesOnly [.mem] (s.storeBytes a bs) := by
  intro c hc
  cases c with
  | mem => exact absurd List.mem_cons_self hc
  | v => exact fun _ => rfl
  | index | pc | stack | sp | dt | st | key | fb | dirty | mode | waitx | fault | draws => rfl

theorem changesOnly_setMode (s : State) (m : Mode) : s.ChangesOnly [.mode] (s.setMode m) := by
  intro c hc
  cases c with
  | mode => exact absurd List.mem_cons_self hc
  | v | mem => exact fun _ => rfl
  | index | pc | stack | sp | dt | st | key | fb | dirty | waitx | fault | draws => rfl

theorem changesOnly_setWaitx (s : State) (x : Nibble) : s.ChangesOnly [.waitx] (s.setWaitx x) := by
  intro c hc
  cases c with
  | waitx => exact absurd List.mem_cons_self hc
  | v | mem => exact fun _ => rfl
  | index | pc | stack | sp | dt | st | key | fb | dirty | mode | fault | draws => rfl

theorem changesOnly_setDraws (s : State) (n : Nat) : s.ChangesOnly [.draws] (s.setDraws n) := by
  intro c hc
  cases c with
  | draws => exact absurd List.mem_cons_self hc
  | v | mem => exact fun _ => rfl
  | index | pc | stack | sp | dt | st | key | fb | dirty | mode | waitx | fault => rfl

/-- Fault entry writes the mode and the record and nothing else (R263). -/
theorem changesOnly_raise (s : State) (cause : FaultCause) (opcode pc : Word) (addr : Nat) :
    s.ChangesOnly [.mode, .fault] (s.raise cause opcode pc addr) := by
  intro c hc
  cases c with
  | mode | fault => simp at hc
  | v | mem => exact fun _ => rfl
  | index | pc | stack | sp | dt | st | key | fb | dirty | waitx | draws => rfl

theorem changesOnly_skipIf (s : State) (taken : Bool) : s.ChangesOnly [.pc] (skipIf taken s) :=
  skipIf_eq taken s ▸ changesOnly_setPc s _

/-- A raised fault is the fault entry of the statements, for an address that the record's field holds (R38). -/
theorem entersFault_raise (s : State) (cause : FaultCause) (opcode pc : Word) {addr : Nat} (haddr : addr < 2 ^ 17) :
    s.EntersFault cause opcode pc addr (s.raise cause opcode pc addr) :=
  ⟨rfl, rfl, rfl, rfl, (BitVec.toNat_ofNat _ _).trans (Nat.mod_eq_of_lt haddr), changesOnly_raise s cause opcode pc addr⟩

/-! ### The normal form -/

/-- The state after a return from a subroutine, when there is an entry to return to (R140). -/
def State.returned (s : State) : State :=
  if h : 0 < s.sp.val then (s.setStack s.stack ⟨s.sp.val - 1, by omega⟩).setPc s.stack[s.sp.val - 1] else s

/-- The state after a call, when there is a free entry (R142). -/
def State.called (s : State) (nnn : Addr12) : State :=
  if h : s.sp.val < 16 then (s.setStack (s.stack.set s.sp.val s.pc) ⟨s.sp.val + 1, by omega⟩).setPc (address nnn) else s

/-- The state after a sprite is drawn (R201, R204, R209). -/
def State.drewSprite (s : State) (x y n : Nibble) : State :=
  ((s.setFb (s.drawn x y n).1).setV VF (flagByte (s.drawn x y n).2)).setDirty true

/-- The fault that an instruction meets, if it meets one: the table of R261. -/
def State.faultOf (s : State) : Instr → Option (FaultCause × Nat)
  | .op00EE => if s.sp.val = 0 then some (.stackUnderflow, 0) else none
  | .op2nnn _ => if s.sp.val = 16 then some (.stackOverflow, 0) else none
  | .opDxyn _ _ n => firstFault readFault (s.effAddr 0) n.toNat
  | .opFx33 _ => firstFault writeFault (s.effAddr 0) 3
  | .opFx55 x => firstFault writeFault (s.effAddr 0) (runLength x)
  | .opFx65 x => firstFault readFault (s.effAddr 0) (runLength x)
  | _ => none

/-- The state after an instruction that meets no fault. -/
def State.effectOf (s : State) : Instr → State
  | .op00E0 => (s.setFb (Vector.replicate 32 0)).setDirty true
  | .op00EE => s.returned
  | .op1nnn nnn => s.setPc (address nnn)
  | .op2nnn nnn => s.called nnn
  | .op3xkk x kk => skipIf (s.getV x == kk) s
  | .op4xkk x kk => skipIf (s.getV x != kk) s
  | .op5xy0 x y => skipIf (s.getV x == s.getV y) s
  | .op6xkk x kk => s.setV x kk
  | .op7xkk x kk => s.setV x (s.getV x + kk)
  | .op8xy0 x y => s.setV x (s.getV y)
  | .op8xy1 x y => s.setV x (s.getV x ||| s.getV y)
  | .op8xy2 x y => s.setV x (s.getV x &&& s.getV y)
  | .op8xy3 x y => s.setV x (s.getV x ^^^ s.getV y)
  | .op8xy4 x y => s.setVThenFlag x ((sum9 (s.getV x) (s.getV y)).setWidth 8) (carryFlag (s.getV x) (s.getV y))
  | .op8xy5 x y => s.setVThenFlag x (s.getV x - s.getV y) (noBorrowFlag (s.getV x) (s.getV y))
  | .op8xy6 x _ => s.setVThenFlag x (s.getV x >>> 1) (lowBitFlag (s.getV x))
  | .op8xy7 x y => s.setVThenFlag x (s.getV y - s.getV x) (noBorrowFlag (s.getV y) (s.getV x))
  | .op8xyE x _ => s.setVThenFlag x (s.getV x <<< 1) (highBitFlag (s.getV x))
  | .op9xy0 x y => skipIf (s.getV x != s.getV y) s
  | .opAnnn nnn => s.setI (address nnn)
  | .opBnnn nnn => s.setPc (address nnn + widen (s.getV 0))
  | .opCxkk x kk => randomMasked s.drawByte x kk s.nextDraw
  | .opDxyn x y n => s.drewSprite x y n
  | .opEx9E x => skipIf (s.getKey (keySelect (s.getV x))) s
  | .opExA1 x => skipIf (!s.getKey (keySelect (s.getV x))) s
  | .opFx07 x => s.setV x s.dt
  | .opFx0A x => (s.setWaitx x).setMode .waitkey
  | .opFx15 x => s.setDt (s.getV x)
  | .opFx18 x => s.setSt (s.getV x)
  | .opFx1E x => s.setI (s.index + widen (s.getV x))
  | .opFx29 x => s.setI (glyphAddr (s.getV x))
  | .opFx33 x => s.storeBytes (s.effAddr 0) (decimalDigits (s.getV x))
  | .opFx55 x => s.storeBytes (s.effAddr 0) (s.registerRun x)
  | .opFx65 x => s.setVs (s.loadRun x (s.effAddr 0))

theorem exec00EE_eq_guarded (s : State) : exec00EE s = guarded .op00EE (s.faultOf .op00EE) State.returned s := by
  unfold exec00EE
  cases hpop : s.pop? with
  | none =>
    have hsp := (pop?_eq_none_iff s).mp hpop
    rw [State.faultOf, if_pos hsp]
    rfl
  | some p =>
    obtain ⟨target, popped⟩ := p
    obtain ⟨hsp, rfl, rfl⟩ := pop?_some hpop
    rw [State.faultOf, if_neg (by omega), guarded_none, State.returned, dif_pos hsp]

theorem exec2nnn_eq_guarded (nnn : Addr12) (s : State) :
    exec2nnn nnn s = guarded (.op2nnn nnn) (s.faultOf (.op2nnn nnn)) (fun t => t.called nnn) s := by
  unfold exec2nnn
  cases hpush : s.push? s.pc with
  | none =>
    have hsp := (push?_eq_none_iff s s.pc).mp hpush
    rw [State.faultOf, if_pos hsp]
    rfl
  | some t =>
    obtain ⟨hsp, rfl⟩ := push?_some hpush
    rw [State.faultOf, if_neg (by omega), guarded_none, State.called, dif_pos hsp]

/-- The normal form: each arm of `exec` is its fault's check and its effect. -/
theorem exec_eq_guarded (i : Instr) (s : State) : exec i s = guarded i (s.faultOf i) (fun t => t.effectOf i) s := by
  cases i with
  | op00EE => exact exec00EE_eq_guarded s
  | op2nnn nnn => exact exec2nnn_eq_guarded nnn s
  | _ => rfl

theorem exec_of_faultOf_none {i : Instr} {s : State} (h : s.faultOf i = none) : exec i s = .next (s.effectOf i) := by
  rw [exec_eq_guarded, h, guarded_none]

theorem exec_of_faultOf_some {i : Instr} {s : State} {c : FaultCause} {a : Nat} (h : s.faultOf i = some (c, a)) :
    exec i s = .next (s.raise c (encode i) s.instrAddr a) := by
  rw [exec_eq_guarded, h, guarded_some]

/-- INVERSION of `exec`: an instruction met no fault and had its effect, or it entered its fault and had none. -/
theorem exec_cases {i : Instr} {s t : State} (h : exec i s = .next t) :
    (s.faultOf i = none ∧ t = s.effectOf i) ∨
    ∃ c a, s.faultOf i = some (c, a) ∧ t = s.raise c (encode i) s.instrAddr a :=
  guarded_cases (exec_eq_guarded i s ▸ h)

theorem exec_total (i : Instr) (s : State) : ∃ t, exec i s = .next t := by
  cases h : s.faultOf i with
  | none => exact ⟨_, exec_of_faultOf_none h⟩
  | some f => exact ⟨_, exec_of_faultOf_some h⟩

/-- An instruction that meets a fault enters it, with its own word and address in the record (R261). -/
theorem exec_entersFault {i : Instr} {s : State} {c : FaultCause} {a : Nat} (h : s.faultOf i = some (c, a))
    (ha : a < 2 ^ 17) : ∃ t, exec i s = .next t ∧ s.EntersFault c (encode i) s.instrAddr a t :=
  ⟨_, exec_of_faultOf_some h, entersFault_raise s c (encode i) s.instrAddr ha⟩

/-! ### What an instruction may write -/

theorem changesOnly_returned (s : State) : s.ChangesOnly [.pc, .sp] s.returned := by
  unfold State.returned
  split
  · exact ((changesOnly_setSp s _).append (changesOnly_setPc _ _)).mono (by simp)
  · exact changesOnly_refl s _

theorem changesOnly_called (s : State) (nnn : Addr12) : s.ChangesOnly [.pc, .stack, .sp] (s.called nnn) := by
  unfold State.called
  split
  · exact ((changesOnly_setStack s _ _).append (changesOnly_setPc _ _)).mono (by simp)
  · exact changesOnly_refl s _

theorem changesOnly_drewSprite (s : State) (x y n : Nibble) :
    s.ChangesOnly [.v, .fb, .dirty] (s.drewSprite x y n) :=
  (((changesOnly_setFb s _).append (changesOnly_setV _ VF _)).append (changesOnly_setDirty _ true)).mono (by simp)

theorem changesOnly_randomMasked (s : State) (r : Byte) (x : Nibble) (kk : Byte) :
    s.ChangesOnly [.v, .draws] (randomMasked r x kk s.nextDraw) :=
  ((changesOnly_setDraws s _).append (changesOnly_setV _ x _)).mono (by simp)

/-- FRAME of every effect: the column "written by" of R20. -/
theorem changesOnly_effectOf (s : State) (i : Instr) : s.ChangesOnly (instrWrites i) (s.effectOf i) := by
  cases i with
  | op00E0 => exact (changesOnly_setFb s _).append (changesOnly_setDirty _ true)
  | op00EE => exact changesOnly_returned s
  | op2nnn nnn => exact changesOnly_called s nnn
  | op1nnn | opBnnn => exact changesOnly_setPc s _
  | op3xkk | op4xkk | op5xy0 | op9xy0 | opEx9E | opExA1 => exact changesOnly_skipIf s _
  | op6xkk | op7xkk | op8xy0 | op8xy1 | op8xy2 | op8xy3 | opFx07 => exact changesOnly_setV s _ _
  | op8xy4 | op8xy5 | op8xy6 | op8xy7 | op8xyE => exact (changesOnly_setV s _ _).trans (changesOnly_setV _ VF _)
  | opAnnn | opFx1E | opFx29 => exact changesOnly_setI s _
  | opCxkk x kk => exact changesOnly_randomMasked s _ x kk
  | opDxyn x y n => exact changesOnly_drewSprite s x y n
  | opFx0A x => exact ((changesOnly_setWaitx s x).append (changesOnly_setMode _ _)).mono (by simp [instrWrites])
  | opFx15 => exact changesOnly_setDt s _
  | opFx18 => exact changesOnly_setSt s _
  | opFx33 | opFx55 => exact changesOnly_storeBytes s _ _
  | opFx65 => exact changesOnly_setVs s _

theorem mode_mem_instrWrites {i : Instr} : .mode ∈ instrWrites i ↔ ∃ x, i = .opFx0A x := by
  cases i <;> simp [instrWrites]

/-- Only the wait for a key changes the mode without a fault (R222). -/
theorem mode_effectOf {i : Instr} (s : State) (hi : ∀ x, i ≠ .opFx0A x) : (s.effectOf i).mode = s.mode := by
  refine changesOnly_effectOf s i .mode fun hmode => ?_
  obtain ⟨x, hx⟩ := mode_mem_instrWrites.mp hmode
  exact hi x hx

theorem effectOf_safe {s : State} (hs : s.Safe) (i : Instr) : (s.effectOf i).Safe := by
  by_cases hi : ∃ x, i = .opFx0A x
  · obtain ⟨x, rfl⟩ := hi
    exact Mode.noConfusion
  · rw [State.Safe, mode_effectOf s (by simpa using hi)]
    exact hs

/-- Settles O11: an effect writes its own elements, and a fault entry the mode and the record. -/
theorem instructionsWriteOnlyTheirElements : Obligations.InstructionsWriteOnlyTheirElements := by
  intro i s t hs hexec
  rcases exec_cases hexec with ⟨-, rfl⟩ | ⟨c, a, -, rfl⟩
  · exact .inl ⟨effectOf_safe hs i, changesOnly_effectOf s i⟩
  · exact .inr ⟨fun hsafe => hsafe rfl, changesOnly_raise s c _ _ a⟩

/-! ### Which instructions fault (R261) -/

theorem safe_iff_faultOf_none {i : Instr} {s t : State} (hs : s.Safe) (hexec : exec i s = .next t) :
    t.Safe ↔ s.faultOf i = none := by
  rcases exec_cases hexec with ⟨hf, rfl⟩ | ⟨c, a, hf, rfl⟩
  · exact iff_of_true (effectOf_safe hs i) hf
  · exact iff_of_false (fun hsafe => hsafe rfl) (by simp [hf])

theorem faultOf_00EE_eq_none (s : State) : s.faultOf .op00EE = none ↔ s.sp.val ≠ 0 := by
  simp [State.faultOf]

theorem faultOf_2nnn_eq_none (s : State) (nnn : Addr12) : s.faultOf (.op2nnn nnn) = none ↔ s.sp.val ≠ 16 := by
  simp [State.faultOf]

theorem faultOf_Fx33_eq_none (s : State) (x : Nibble) :
    s.faultOf (.opFx33 x) = none ↔ 80 ≤ s.effAddr 0 ∧ s.effAddr 2 ≤ 4095 := by
  rw [State.faultOf, firstFault_writeFault_eq_none (by omega)]
  simp only [State.effAddr]
  omega

theorem faultOf_Fx55_eq_none (s : State) (x : Nibble) :
    s.faultOf (.opFx55 x) = none ↔ 80 ≤ s.effAddr 0 ∧ s.effAddr x.toNat ≤ 4095 := by
  rw [State.faultOf, runLength, firstFault_writeFault_eq_none (by omega)]
  simp only [State.effAddr]
  omega

theorem faultOf_Fx65_eq_none (s : State) (x : Nibble) :
    s.faultOf (.opFx65 x) = none ↔ s.effAddr x.toNat ≤ 4095 := by
  rw [State.faultOf, runLength, firstFault_readFault_eq_none]
  simp only [State.effAddr]
  omega

theorem faultOf_Dxyn_eq_none (s : State) (x y n : Nibble) :
    s.faultOf (.opDxyn x y n) = none ↔ n.toNat = 0 ∨ s.effAddr n.toNat ≤ 4096 :=
  firstFault_readFault_eq_none _ _

/-- Settles O45: a fault is entered exactly when the check of the instruction finds one, and only six have a check. -/
theorem onlySixInstructionsFault : Obligations.OnlySixInstructionsFault := by
  intro i s t hs hexec
  rw [safe_iff_faultOf_none hs hexec]
  cases i with
  | op00EE => exact faultOf_00EE_eq_none s
  | op2nnn nnn => exact faultOf_2nnn_eq_none s nnn
  | opFx33 x => exact faultOf_Fx33_eq_none s x
  | opFx55 x => exact faultOf_Fx55_eq_none s x
  | opFx65 x => exact faultOf_Fx65_eq_none s x
  | opDxyn x y n => exact faultOf_Dxyn_eq_none s x y n
  | _ => exact iff_of_true rfl trivial

end Sys2Proof.Machine
end

section
/-! PROOFS. Jump with offset, call and return (spec/41_control_flow.md). -/

namespace Sys2Proof.Machine

/-! ### Jump with offset (R147) -/

/-- Settles O21: the sum of a 12-bit and an 8-bit number fits 16 bits. -/
theorem jumpWithOffset : Obligations.JumpWithOffset := by
  refine ⟨decodeWord_Bnnn, fun nnn s => ⟨_, exec_of_faultOf_none rfl, ?_, changesOnly_setPc s _⟩⟩
  have hnnn := nnn.isLt
  have hv := (s.getV 0).isLt
  simp only [State.effectOf, State.setPc_pc, BitVec.toNat_add, address_toNat, widen_toNat]
  omega

/-! ### Call (R142) -/

theorem exec_op2nnn_of_free {s : State} (nnn : Addr12) (h : s.sp.val < 16) : exec (.op2nnn nnn) s =
    .next ((s.setStack (s.stack.set s.sp.val s.pc) ⟨s.sp.val + 1, by omega⟩).setPc (address nnn)) := by
  rw [exec_of_faultOf_none ((faultOf_2nnn_eq_none s nnn).mpr (by omega)), State.effectOf, State.called, dif_pos h]

/-- Settles O22: the entry at the old SP is the only one written; a full stack leaves nowhere to push. -/
theorem call : Obligations.Call := by
  refine ⟨decodeWord_2nnn, fun nnn s h => ?_, fun nnn s hfull => ?_⟩
  · have hframe := ((changesOnly_setStack s (s.stack.set s.sp.val s.pc) ⟨s.sp.val + 1, by omega⟩).append
      (changesOnly_setPc _ (address nnn))).mono (more := [.pc, .stack, .sp]) (by simp)
    refine ⟨_, exec_op2nnn_of_free nnn h, address_toNat nnn, rfl, ?_, fun k hk hne => ?_, hframe⟩
    · exact Vector.getElem_set_self _
    · exact Vector.getElem_set_ne h hk hne.symm
  · exact exec_entersFault (i := .op2nnn nnn) (if_pos hfull) (by omega)

/-! ### Return (R140) -/

theorem exec_op00EE_of_entry {s : State} (h : 0 < s.sp.val) : exec .op00EE s =
    .next ((s.setStack s.stack ⟨s.sp.val - 1, by omega⟩).setPc s.stack[s.sp.val - 1]) := by
  rw [exec_of_faultOf_none ((faultOf_00EE_eq_none s).mpr (by omega)), State.effectOf, State.returned, dif_pos h]

/-- Settles O23: SP moves down by one and PC is the entry it then points at; an empty stack has none. -/
theorem return' : Obligations.Return := by
  refine ⟨decodeWord_00EE, fun s h => ?_, fun s hempty => ?_⟩
  · have hframe := ((changesOnly_setSp s ⟨s.sp.val - 1, by omega⟩).append
      (changesOnly_setPc _ s.stack[s.sp.val - 1])).mono (more := [.pc, .sp]) (by simp)
    exact ⟨_, exec_op00EE_of_entry h, Nat.sub_add_cancel h, rfl, hframe⟩
  · exact exec_entersFault (i := .op00EE) (if_pos hempty) (by omega)

/-- Settles O24: the entry that the return reads is the one that the call wrote. -/
theorem returnUndoesCall : Obligations.ReturnUndoesCall := by
  intro nnn s h
  have hentry : 0 < (s.sp.val + 1) := by omega
  refine ⟨_, _, exec_op2nnn_of_free nnn h, exec_op00EE_of_entry hentry, ?_, rfl, ?_⟩
  · exact Vector.getElem_set_self _
  · intro c hc
    cases c with
    | stack => exact absurd List.mem_cons_self hc
    | v | mem => exact fun _ => rfl
    | pc => exact Vector.getElem_set_self _
    | index | sp | dt | st | key | fb | dirty | mode | waitx | fault | draws => rfl

end Sys2Proof.Machine
end

section
/-! PROOFS. Glyph pointer, stores and loads (spec/43_index_memory.md), and the instruction a store puts in place
(spec/20_memory.md section 8). -/

namespace Sys2Proof.Machine

/-- Settles O28: five times a byte fits 16 bits. -/
theorem pointAtGlyph : Obligations.PointAtGlyph :=
  ⟨decodeWord_Fx29, fun x s => ⟨_, exec_of_faultOf_none rfl, glyphAddr_toNat (s.getV x), changesOnly_setI s _⟩⟩

/-! ### Effective addresses (R186) -/

theorem effAddr_eq_add (s : State) (k : Nat) : s.effAddr k = s.effAddr 0 + k := rfl

theorem effAddr_zero_lt (s : State) : s.effAddr 0 < 65536 := s.index.isLt

/-! ### What a run of stores leaves in memory (R66) -/

theorem readByte_storeBytes_inside (s : State) (a : Nat) {bs : List Byte} {k : Nat} (hk : k < bs.length) :
    (s.storeBytes a bs).readByte (a + k) = bs[k] := by
  rw [State.storeBytes_readByte, Memory.get_setBytes, if_pos (by omega), Nat.add_sub_cancel_left,
    List.getElem?_eq_getElem hk, Option.getD_some]

theorem readByte_storeBytes_outside (s : State) {a b : Nat} {bs : List Byte} (h : b < a ∨ a + bs.length ≤ b) :
    (s.storeBytes a bs).readByte b = s.readByte b :=
  Memory.get_setBytes_outside h

/-! ### The store's faults (R63, R64) -/

section
variable {i : Instr} {s : State} {len : Nat}

/-- A store whose first address is in the font faults there. -/
theorem exec_entersFontFault (hcheck : s.faultOf i = firstFault writeFault (s.effAddr 0) len) (hlen : 0 < len)
    (hfont : s.effAddr 0 ≤ 0x04F) :
    ∃ t, exec i s = .next t ∧ s.EntersFault .fontWriteFault (encode i) s.instrAddr (s.effAddr 0) t := by
  rw [firstFault_writeFault hlen, if_pos (by omega)] at hcheck
  exact exec_entersFault hcheck (by omega)

/-- A short store that ends above memory faults at its lowest address outside. -/
theorem exec_store_entersOutOfRange (hcheck : s.faultOf i = firstFault writeFault (s.effAddr 0) len) (hlen : 0 < len)
    (hshort : len ≤ 16) (hhigh : 4096 < s.effAddr 0 + len) :
    ∃ t, exec i s = .next t ∧ s.EntersFault .memoryOutOfRange (encode i) s.instrAddr (max (s.effAddr 0) 4096) t := by
  rw [firstFault_writeFault hlen, if_neg (by omega), if_neg (by omega)] at hcheck
  have := effAddr_zero_lt s
  exact exec_entersFault hcheck (by omega)

/-- A load or a draw that ends above memory faults at its lowest address outside. -/
theorem exec_load_entersOutOfRange (hcheck : s.faultOf i = firstFault readFault (s.effAddr 0) len) (hlen : 0 < len)
    (hhigh : 4096 < s.effAddr 0 + len) :
    ∃ t, exec i s = .next t ∧ s.EntersFault .memoryOutOfRange (encode i) s.instrAddr (max (s.effAddr 0) 4096) t := by
  rw [firstFault_readFault, if_neg (by omega)] at hcheck
  have := effAddr_zero_lt s
  exact exec_entersFault hcheck (by omega)

end

/-! ### Decimal store (R183) -/

theorem exec_opFx33_of_writable {s : State} {x : Nibble} (hlow : 0x050 ≤ s.effAddr 0) (hhigh : s.effAddr 2 ≤ 4095) :
    exec (.opFx33 x) s = .next (s.storeBytes (s.effAddr 0) (decimalDigits (s.getV x))) :=
  exec_of_faultOf_none ((faultOf_Fx33_eq_none s x).mpr ⟨hlow, hhigh⟩)

theorem getElem_decimalDigits_toNat (b : Byte) {k : Nat} (hk : k < 3) :
    ((decimalDigits b)[k]'hk).toNat = [b.toNat / 100, b.toNat / 10 % 10, b.toNat % 10][k] := by
  simp only [← decimalDigits_toNat, List.getElem_map]
  rfl

/-- Settles O29: the three addresses are consecutive, so the three digits stand at them in order. -/
theorem storeDecimal : Obligations.StoreDecimal := by
  refine ⟨decodeWord_Fx33, fun x s hlow hhigh => ?_, fun x s hfont => ?_, fun x s hhigh => ?_⟩
  · have hdigit (k : Nat) (hk : k < 3) := congrArg BitVec.toNat
      (readByte_storeBytes_inside s (s.effAddr 0) (bs := decimalDigits (s.getV x)) hk)
    refine ⟨_, exec_opFx33_of_writable hlow hhigh, ?_, ?_, ?_, fun a ha => ?_, changesOnly_storeBytes s _ _⟩
    · exact (hdigit 0 (by omega)).trans (getElem_decimalDigits_toNat _ _)
    · exact (hdigit 1 (by omega)).trans (getElem_decimalDigits_toNat _ _)
    · exact (hdigit 2 (by omega)).trans (getElem_decimalDigits_toNat _ _)
    · refine readByte_storeBytes_outside s ?_
      rw [length_decimalDigits]
      rw [effAddr_eq_add s 2] at ha
      omega
  · exact exec_entersFontFault (i := .opFx33 x) rfl (by omega) hfont
  · exact exec_store_entersOutOfRange (i := .opFx33 x) rfl (by omega) (by omega) (by rw [effAddr_eq_add] at hhigh; omega)

/-! ### Register store (R184) -/

theorem exec_opFx55_of_writable {s : State} {x : Nibble} (hlow : 0x050 ≤ s.effAddr 0)
    (hhigh : s.effAddr x.toNat ≤ 4095) :
    exec (.opFx55 x) s = .next (s.storeBytes (s.effAddr 0) (s.registerRun x)) :=
  exec_of_faultOf_none ((faultOf_Fx55_eq_none s x).mpr ⟨hlow, hhigh⟩)

theorem readByte_storeRegisters (s : State) {x j : Nibble} (hj : j.toNat ≤ x.toNat) :
    (s.storeBytes (s.effAddr 0) (s.registerRun x)).readByte (s.effAddr j.toNat) = s.getV j := by
  have hlen : j.toNat < (s.registerRun x).length := by rw [length_registerRun]; omega
  rw [effAddr_eq_add s j.toNat, readByte_storeBytes_inside s _ hlen, ← Option.some_inj, ← List.getElem?_eq_getElem hlen,
    getElem?_registerRun s x j hj]

theorem runLength_le (x : Nibble) : runLength x ≤ 16 := x.isLt

/-- Settles O30: the run of registers stands at consecutive addresses from I on. -/
theorem storeRegisters : Obligations.StoreRegisters := by
  refine ⟨decodeWord_Fx55, fun x s hlow hhigh => ?_, fun x s hfont => ?_, fun x s hhigh => ?_⟩
  · refine ⟨_, exec_opFx55_of_writable hlow hhigh, fun j hj => readByte_storeRegisters s hj, fun a ha => ?_,
      changesOnly_storeBytes s _ _⟩
    refine readByte_storeBytes_outside s ?_
    rw [length_registerRun]
    rw [effAddr_eq_add s x.toNat] at ha
    omega
  · exact exec_entersFontFault (i := .opFx55 x) rfl (Nat.succ_pos _) hfont
  · exact exec_store_entersOutOfRange (i := .opFx55 x) rfl (Nat.succ_pos _) (runLength_le x) (Nat.succ_lt_succ hhigh)

/-! ### Register load (R185) -/

/-- Settles O31: Vj for j up to x is the byte at I + j, every other register its old value. -/
theorem loadRegisters : Obligations.LoadRegisters := by
  refine ⟨decodeWord_Fx65, fun x s hhigh => ?_, fun x s hhigh => ?_⟩
  · exact ⟨_, exec_of_faultOf_none ((faultOf_Fx65_eq_none s x).mpr hhigh),
      fun j => getV_loadRun s x j (s.effAddr 0), changesOnly_setVs s _⟩
  · exact exec_load_entersOutOfRange (i := .opFx65 x) rfl (Nat.succ_pos _) (Nat.succ_lt_succ hhigh)

/-! ### A stored instruction (R76, R301) -/

/-- Settles O32: the two bytes fetched are the first two stored, V0 and V1. -/
theorem storedInstructionRunsNext : Obligations.StoredInstructionRunsNext := by
  intro s x i hrun hindex hx hlow hhigh hdecode
  refine ⟨_, exec_opFx55_of_writable hlow hhigh, ?_⟩
  have hbase : s.effAddr 0 = s.pc.toNat := congrArg BitVec.toNat hindex
  have hfirst := readByte_storeRegisters s (x := x) (j := 0) (Nat.zero_le _)
  have hsecond := readByte_storeRegisters s (x := x) (j := 1) hx
  refine step_of_decoded hrun ((fetchFault_none_iff _).mpr ?_) ?_
  · rw [effAddr_eq_add] at hhigh
    rw [State.storeBytes_pc]
    omega
  · rw [State.fetchWord, State.readWord, State.storeBytes_pc, ← hbase]
    exact (congrArg₂ (fun hi lo => decodeWord (wordOfBytes hi lo)) hfirst hsecond).trans hdecode

end Sys2Proof.Machine
end

section
/-! PROOFS. Drawing a sprite (spec/44_display.md R201 to R206), pixel by pixel. -/

namespace Sys2Proof.Machine

/-! ### Pixels and rows -/

theorem pixel_of_row_lt (s : State) {row : Nat} (hrow : row < 32) (col : Nat) :
    s.pixel row col = s.fb[row].getMsbD col :=
  dif_pos hrow

/-- The framebuffer is its 2048 pixels. -/
theorem fb_ext {s t : State} (h : ∀ row col, row < 32 → col < 64 → s.pixel row col = t.pixel row col) : s.fb = t.fb := by
  refine Vector.ext fun row hrow => BitVec.eq_of_getMsbD_eq fun col hcol => ?_
  rw [← pixel_of_row_lt s hrow, ← pixel_of_row_lt t hrow]
  exact h row col hrow hcol

theorem ne_zero_iff_exists_getMsbD (v : BitVec 64) : v ≠ 0 ↔ ∃ col, col < 64 ∧ v.getMsbD col = true := by
  constructor
  · intro hne
    by_contra hnone
    push Not at hnone
    exact hne (BitVec.eq_of_getMsbD_eq fun col hcol => by simpa using hnone col hcol)
  · rintro ⟨col, -, hbit⟩ rfl
    simp at hbit

/-! ### The sprite (R201, R203, R206) -/

/-- The pixel, at a position of the screen, of the sprite that `Dxyn` draws. -/
def State.spriteOf (s : State) (x y n : Nibble) (row col : Nat) : Bool :=
  s.spritePixel (s.effAddr 0) n.toNat (startRow (s.getV y)) (startCol (s.getV x)) row col

/-- On a row that the sprite covers its pixels are those of the row's byte, on every other row it has none. -/
theorem spritePixel_eq (s : State) (base n py px row : Nat) {col : Nat} (hcol : col < 64) :
    s.spritePixel base n py px row col = if py ≤ row ∧ row - py < n then
      (spriteRow (s.readByte (base + (row - py))) px).getMsbD col else false := by
  rw [spriteRow_getMsbD, State.spritePixel]
  by_cases hfirst : py ≤ row
  · have hlast : row < py + n ↔ row - py < n := by omega
    by_cases hin : row - py < n <;> simp [hfirst, hlast, hin, hcol]
  · simp [hfirst]

theorem getElem_readBytes (s : State) (base : Nat) {len k : Nat} (hk : k < (s.readBytes base len).length) :
    (s.readBytes base len)[k] = s.readByte (base + k) := by
  simp [State.readBytes]

/-! ### What is drawn -/

/-- Each pixel is XORed with the sprite's pixel there. -/
theorem pixel_drewSprite (s : State) (x y n : Nibble) {row col : Nat} (hrow : row < 32) (hcol : col < 64) :
    (s.drewSprite x y n).pixel row col = (s.pixel row col ^^ s.spriteOf x y n row col) := by
  rw [State.drewSprite, State.setDirty_pixel, State.setV_pixel, pixel_setFb s _ hrow, State.drawn, drawRows_row,
    State.spriteOf, spritePixel_eq _ _ _ _ _ _ hcol, pixel_of_row_lt s hrow]
  simp only [length_readBytes, getElem_readBytes, dite_eq_ite]
  split
  · rw [BitVec.getMsbD_xor]
  · rw [Bool.xor_false]

/-- A collision: a lit pixel under a lit pixel of the sprite. -/
theorem drawn_hit_iff (s : State) (x y n : Nibble) : (s.drawn x y n).2 = true ↔
    ∃ row col, row < 32 ∧ col < 64 ∧ s.pixel row col = true ∧ s.spriteOf x y n row col = true := by
  rw [State.drawn, drawRows_hit]
  constructor
  · rintro ⟨k, hk, hrow, hmeet⟩
    obtain ⟨col, hcol, hbit⟩ := (ne_zero_iff_exists_getMsbD _).mp hmeet
    rw [getElem_readBytes, BitVec.getMsbD_and, Bool.and_eq_true, ← pixel_of_row_lt s hrow] at hbit
    obtain ⟨hlit, hsprite⟩ := hbit
    rw [length_readBytes] at hk
    refine ⟨_, col, hrow, hcol, hlit, ?_⟩
    rw [State.spriteOf, spritePixel_eq _ _ _ _ _ _ hcol, if_pos (by omega), Nat.add_sub_cancel_left]
    exact hsprite
  · rintro ⟨row, col, hrow, hcol, hlit, hsprite⟩
    rw [State.spriteOf, spritePixel_eq _ _ _ _ _ _ hcol] at hsprite
    split at hsprite
    case isFalse => cases hsprite
    case isTrue hcover =>
      obtain ⟨k, rfl⟩ := Nat.exists_eq_add_of_le hcover.1
      rw [Nat.add_sub_cancel_left] at hsprite hcover
      refine ⟨k, by rw [length_readBytes]; exact hcover.2, hrow, (ne_zero_iff_exists_getMsbD _).mpr ⟨col, hcol, ?_⟩⟩
      rw [getElem_readBytes, BitVec.getMsbD_and, Bool.and_eq_true, ← pixel_of_row_lt s hrow]
      exact ⟨hlit, hsprite⟩

theorem flagByte_eq_one_iff (b : Bool) : flagByte b = 1 ↔ b = true := by
  cases b <;> decide

theorem flagByte_eq_zero_or_one (b : Bool) : flagByte b = 0 ∨ flagByte b = 1 := by
  cases b <;> decide

/-- VF is written last, no other register is written (R204). -/
theorem getV_drewSprite (s : State) (x y n j : Nibble) :
    (s.drewSprite x y n).getV j = if j = 15 then flagByte (s.drawn x y n).2 else s.getV j :=
  State.getV_setV _ VF j _

/-- VF is 1 exactly on a collision. -/
theorem getV_flag_drewSprite (s : State) (x y n : Nibble) : (s.drewSprite x y n).getV 15 = 1 ↔
    ∃ row col, row < 32 ∧ col < 64 ∧ s.pixel row col = true ∧ s.spriteOf x y n row col = true := by
  rw [getV_drewSprite, if_pos rfl, flagByte_eq_one_iff, drawn_hit_iff]

theorem exec_opDxyn_of_readable {s : State} {x y n : Nibble} (h : n.toNat = 0 ∨ s.effAddr n.toNat ≤ 4096) :
    exec (.opDxyn x y n) s = .next (s.drewSprite x y n) :=
  exec_of_faultOf_none ((faultOf_Dxyn_eq_none s x y n).mpr h)

/-- Settles O35: the rows drawn are the sprite's bytes clipped at the edges, the flag their meeting with lit pixels. -/
theorem drawSprite : Obligations.DrawSprite := by
  refine ⟨decodeWord_Dxyn, fun x y n s hread => ?_, fun x y n s hn hhigh => ?_⟩
  · refine ⟨_, exec_opDxyn_of_readable hread, fun row col => pixel_drewSprite s x y n, getV_flag_drewSprite s x y n,
      ?_, rfl, fun j hj => ?_, changesOnly_drewSprite s x y n⟩
    · rw [getV_drewSprite, if_pos rfl]
      exact flagByte_eq_zero_or_one _
    · rw [getV_drewSprite, if_neg hj]
  · exact exec_load_entersOutOfRange (i := .opDxyn x y n) rfl (Nat.pos_of_ne_zero hn) hhigh

/-! ### Drawing twice -/

/-- A draw moves neither the sprite nor its position, when the position is not held in VF. -/
theorem spriteOf_drewSprite (s : State) {x y : Nibble} (n : Nibble) (hx : x ≠ 15) (hy : y ≠ 15) :
    (s.drewSprite x y n).spriteOf x y n = s.spriteOf x y n := by
  unfold State.spriteOf
  rw [getV_drewSprite, getV_drewSprite, if_neg hx, if_neg hy]
  rfl

/-- Settles O36: XOR with the same sprite twice is nothing, and on a clear screen what is lit is the sprite itself. -/
theorem drawingTwiceRestores : Obligations.DrawingTwiceRestores := by
  intro x y n s hx hy hread
  have hagain : n.toNat = 0 ∨ (s.drewSprite x y n).effAddr n.toNat ≤ 4096 := hread
  have hsprite := spriteOf_drewSprite s n hx hy
  refine ⟨_, _, exec_opDxyn_of_readable hread, exec_opDxyn_of_readable hagain, ?_, fun hclear => ⟨?_, ?_⟩⟩
  · refine fb_ext fun row col hrow hcol => ?_
    rw [pixel_drewSprite _ x y n hrow hcol, pixel_drewSprite s x y n hrow hcol, hsprite, Bool.xor_assoc, Bool.xor_self,
      Bool.xor_false]
  · rw [getV_drewSprite, if_pos rfl]
    refine (flagByte_eq_zero_or_one _).resolve_right fun hflag => ?_
    obtain ⟨row, col, -, -, hlit, -⟩ := (drawn_hit_iff s x y n).mp ((flagByte_eq_one_iff _).mp hflag)
    exact Bool.false_ne_true ((hclear row col).symm.trans hlit)
  · rw [getV_flag_drewSprite, hsprite]
    have hlit {row col : Nat} (hrow : row < 32) (hcol : col < 64) :
        (s.drewSprite x y n).pixel row col = s.spriteOf x y n row col := by
      rw [pixel_drewSprite s x y n hrow hcol, hclear, Bool.false_xor]
    constructor
    · rintro ⟨row, col, hrow, hcol, hpixel, -⟩
      exact ⟨row, col, hrow, hcol, hpixel⟩
    · rintro ⟨row, col, hrow, hcol, hpixel⟩
      exact ⟨row, col, hrow, hcol, hpixel, hlit hrow hcol ▸ hpixel⟩

end Sys2Proof.Machine
end

section
/-! PROOFS. Keypad and random byte (spec/45_keypad.md, spec/46_timers_random.md section 1). -/

namespace Sys2Proof.Machine

/-! ### Skips on a key (R220, R221, R223) -/

theorem getKey_keySelect (s : State) (b : Byte) : s.getKey (keySelect b) = s.key[b.toNat % 16] := by
  simp only [State.getKey, keySelect_toNat]

/-- Settles O37: the key selected is the low nibble of Vx, and the two tests of its latch bit are complements. -/
theorem skipOnKey : Obligations.SkipOnKey := by
  refine ⟨fun x => ⟨decodeWord_Exkk x 0x9E, decodeWord_Exkk x 0xA1⟩, fun x s => ⟨?_, ?_⟩⟩
  · refine exec_skip_when (taken := s.getKey (keySelect (s.getV x))) rfl ?_
    rw [getKey_keySelect]
  · refine exec_skip_unless (taken := !s.getKey (keySelect (s.getV x))) rfl ?_
    rw [getKey_keySelect, Bool.not_eq_true', Bool.not_eq_true]

/-! ### The wait for a key (R222, R227) -/

theorem operate_keyPress_of_waitkey {s : State} (h : s.mode = .waitkey) (k : Nibble) :
    operate (.keyPress k) s = .next ((s.setV s.waitx (k.setWidth 8)).setMode .run, .done) := by
  rw [operate, keyPress_eq, if_pos h]

theorem operate_keyPress_of_not_waitkey {s : State} (h : s.mode ≠ .waitkey) (k : Nibble) :
    operate (.keyPress k) s = .next (s, .done) := by
  rw [operate, keyPress_eq, if_neg h]

theorem exec_opFx0A (x : Nibble) (s : State) : exec (.opFx0A x) s = .next ((s.setWaitx x).setMode .waitkey) := rfl

/-- Settles O38: the press finds in WAITX the register that the wait latched there. -/
theorem keyWaitCompletesByKeyPress : Obligations.KeyWaitCompletesByKeyPress := by
  refine ⟨decodeWord_Fx0A, fun x k s => ?_⟩
  have hframe : s.ChangesOnly [.mode, .waitx] ((s.setWaitx x).setMode .waitkey) :=
    changesOnly_effectOf s (.opFx0A x)
  refine ⟨_, _, exec_opFx0A x s, stepResult_of_waitkey rfl, rfl, rfl, hframe, operate_keyPress_of_waitkey rfl k, rfl,
    ?_, fun j hj => ?_, (changesOnly_setV _ _ _).append (changesOnly_setMode _ _)⟩
  · have hk := k.isLt
    simp only [State.setMode_getV, State.setMode_waitx, State.setWaitx_waitx, getV_setV_self, BitVec.toNat_setWidth]
    omega
  · simp only [State.setMode_getV, State.setMode_waitx, State.setWaitx_waitx, State.getV_setV, if_neg hj]

/-- Settles O39: in the other two modes there is no wait to end. -/
theorem keyPressOutsideAWaitIsDropped : Obligations.KeyPressOutsideAWaitIsDropped :=
  fun k _ hmode => operate_keyPress_of_not_waitkey hmode k

/-! ### The random byte (R243, R246) -/

theorem onlyRegister_randomMasked (r : Byte) (x : Nibble) (kk : Byte) (s : State) :
    s.OnlyRegister x (randomMasked r x kk s) :=
  onlyRegister_setV s x (r &&& kk)

theorem and_and_not_self (r kk : Byte) : r &&& kk &&& ~~~kk = 0 := by
  rw [BitVec.and_assoc, BitVec.and_not_self]
  exact BitVec.and_zero

/-- Settles O42: the byte drawn is masked and written, and the counter moves on. -/
theorem randomUnderMask : Obligations.RandomUnderMask := by
  refine ⟨decodeWord_Cxkk, fun x kk s => ?_, fun r x kk s => ?_⟩
  · have hv := randomMasked_getV s.drawByte x kk s.nextDraw
    have hothers := (onlyRegister_randomMasked s.drawByte x kk s.nextDraw).1
    refine ⟨_, exec_of_faultOf_none rfl, ⟨s.drawByte, hv⟩, ?_, rfl, hothers, changesOnly_randomMasked s _ x kk⟩
    rw [State.effectOf, hv, and_and_not_self]
  · exact ⟨randomMasked_getV r x kk s, onlyRegister_randomMasked r x kk s⟩

end Sys2Proof.Machine
end

section
/-! PROOFS. Host operations (spec/70_reset_and_hazards.md, spec/46_timers_random.md section 2, spec/44_display.md
section 4), and the latched fault (spec/60_exceptions.md section 4). -/

namespace Sys2Proof.Machine

/-! ### Ticks (R248, R249) -/

/-- Settles O43: each timer counts down by itself and stops at zero. -/
theorem tickCountsDown : Obligations.TickCountsDown := by
  intro s
  have hcount (b : Byte) : (countDown b).toNat = if b.toNat ≠ 0 then b.toNat - 1 else 0 := by
    rw [countDown_toNat]
    split <;> omega
  exact ⟨s.tickTimers, s.soundStop, rfl, hcount s.dt, hcount s.st, beq_iff_toNat_eq s.st 1,
    (changesOnly_setDt s _).append (changesOnly_setSt _ _)⟩

/-! ### Reset (R290) -/

theorem readByte_resetOp (s : State) (a : Nat) :
    s.resetOp.readByte a = if a < 0x050 then fontByte a else 0 := rfl

/-- Settles O47: the operation installs the reset state, field by field, and keeps the counter. -/
theorem resetInstallsEveryValue : Obligations.ResetInstallsEveryValue := by
  intro s
  refine ⟨s.resetOp, rfl, fun j => ?_, rfl, rfl, fun k hk => ?_, rfl, rfl, rfl, fun k hk => ?_,
    fun row col hrow _ => ?_, rfl, readByte_resetOp s, rfl, rfl, rfl, rfl⟩
  · exact Vector.getElem_replicate _
  · exact Vector.getElem_replicate hk
  · exact Vector.getElem_replicate hk
  · exact pixel_setFb_zero s hrow col

/-! ### Loading a program (R293, R294) -/

theorem operate_loadProgram_of_fits {s : State} {bytes : List Byte} (h : bytes.length ≤ 3584) :
    operate (.loadProgram bytes) s = .next (s.storeBytes 0x200 bytes, .loaded) := by
  rw [operate, (loadProgram?_some_iff s _ bytes).mpr ⟨h, rfl⟩]

theorem operate_loadProgram_of_too_large {s : State} {bytes : List Byte} (h : 3584 < bytes.length) :
    operate (.loadProgram bytes) s = .next (s, .romTooLarge) := by
  rw [operate, (loadProgram?_none_iff s bytes).mpr h]

/-- Settles O48: a program that fits is one run of stores from 0x200 on. -/
theorem loadProgramCopiesOrRefuses : Obligations.LoadProgramCopiesOrRefuses := by
  refine ⟨fun bytes s hfits => ?_, fun bytes s hlarge => operate_loadProgram_of_too_large hlarge⟩
  exact ⟨_, operate_loadProgram_of_fits hfits, fun k hk => readByte_storeBytes_inside s 0x200 hk,
    fun a ha => readByte_storeBytes_outside s ha, changesOnly_storeBytes s 0x200 bytes⟩

/-! ### Read-out and acknowledgement (R207, R208, R268) -/

/-- Settles O49: the view holds the four elements, and the acknowledgement is one write of the dirty flag. -/
theorem readOutAndAcknowledge : Obligations.ReadOutAndAcknowledge :=
  fun s => ⟨⟨s.view, rfl, rfl, rfl, rfl, rfl⟩, s.ackDraw, rfl, rfl, changesOnly_setDirty s false⟩

/-! ### What an operation can do -/

/-- INVERSION of `operate`: the states that an operation can leave. -/
theorem operate_cases {op : Operation} {s t : State} {r : Reply} (h : operate op s = .next (t, r)) :
    (op = .reset ∧ t = s.resetOp) ∨ (∃ bytes : List Byte, bytes.length ≤ 3584 ∧ t = s.storeBytes 0x200 bytes) ∨
    (∃ keys, t = s.setKey keys) ∨
    (s.mode = .waitkey ∧ ∃ k : Nibble, t = (s.setV s.waitx (k.setWidth 8)).setMode .run) ∨
    step s = .next t ∨ t = s.tickTimers ∨ t = s.ackDraw ∨ t = s := by
  cases op with
  | reset => cases h; exact .inl ⟨rfl, rfl⟩
  | loadProgram bytes =>
    rcases Nat.lt_or_ge 3584 bytes.length with hlarge | hfits
    · cases (operate_loadProgram_of_too_large hlarge).symm.trans h; simp
    · cases (operate_loadProgram_of_fits hfits).symm.trans h; exact .inr (.inl ⟨bytes, hfits, rfl⟩)
  | setKeys keys => cases h; exact .inr (.inr (.inl ⟨keys, rfl⟩))
  | keyPress k =>
    by_cases hwait : s.mode = .waitkey
    · cases (operate_keyPress_of_waitkey hwait k).symm.trans h; exact .inr (.inr (.inr (.inl ⟨hwait, k, rfl⟩)))
    · cases (operate_keyPress_of_not_waitkey hwait k).symm.trans h; simp
  | step =>
    cases hstep : step s with
    | next u => cases (operate_step_of_next hstep).symm.trans h; simp
    | fault | refused => simp [operate, hstep] at h
  | tickTimers => cases h; simp
  | ackDraw => cases h; simp
  | readOut => cases h; simp

/-- Settles O46: no operation but `reset` writes MODE, FAULT, PC or V outside a running step and a wait. -/
theorem onlyResetLeavesFaulted : Obligations.OnlyResetLeavesFaulted := by
  intro s hfaulted
  have hmode : s.mode = .faulted := not_not.mp hfaulted
  have hstay : step s = .next s := step_of_not_run (by simp [hmode])
  refine ⟨hstay, fun op t r hop h => ?_, s.resetOp, rfl, Mode.noConfusion⟩
  rcases operate_cases h with ⟨hreset, -⟩ | ⟨bytes, -, rfl⟩ | ⟨keys, rfl⟩ | ⟨hwait, -⟩ | hstep | rfl | rfl | rfl
  · exact absurd hreset hop
  · exact ⟨hfaulted, rfl, rfl, rfl⟩
  · exact ⟨hfaulted, rfl, rfl, rfl⟩
  · exact Mode.noConfusion (hmode.symm.trans hwait)
  · cases hstay.symm.trans hstep
    exact ⟨hfaulted, rfl, rfl, rfl⟩
  · exact ⟨hfaulted, rfl, rfl, rfl⟩
  · exact ⟨hfaulted, rfl, rfl, rfl⟩
  · exact ⟨hfaulted, rfl, rfl, rfl⟩

end Sys2Proof.Machine
end

section
/-! PROOFS. The step: what it runs, what it answers, what it leaves alone, and how precise its faults are
(spec/40_fetch_decode_dispatch.md, spec/60_exceptions.md section 2). -/

namespace Sys2Proof.Machine

/-! ### Fetch and advance (R123, R124) -/

/-- The advance does not wrap after a fetch that succeeded. -/
theorem advance_toNat {pc : Word} (h : pc.toNat ≤ 0xFFE) : (pc + 2).toNat = pc.toNat + 2 := by
  bv_omega

/-- Settles O6: with PC at most 0xFFE the fetch succeeds. -/
theorem stepRunsTheDecodedInstruction : Obligations.StepRunsTheDecodedInstruction :=
  fun s _ hrun hpc hdecode =>
    ⟨step_of_decoded hrun ((fetchFault_none_iff s).mpr hpc) hdecode, advance_toNat hpc⟩

/-- Settles O7: the fetch fault's record holds PC, no word, and the lowest address that cannot be read. -/
theorem fetchAboveTheLastWordFaults : Obligations.FetchAboveTheLastWordFaults := by
  intro s hrun hpc
  have := s.pc.isLt
  exact ⟨_, step_of_pc_above_last_word hrun hpc, entersFault_raise s .memoryOutOfRange 0 s.pc (by omega)⟩

/-- A fault after the fetch, of an unknown word or of an instruction (R263). -/
theorem changesOnly_raise_advance (s : State) (cause : FaultCause) (opcode pc : Word) (addr : Nat) :
    s.ChangesOnly [.pc, .mode, .fault] (s.advance.raise cause opcode pc addr) :=
  (changesOnly_setPc s _).append (changesOnly_raise _ _ _ _ _)

/-- Settles O3: the decoder's refusals are the list, and the step enters the fault with PC advanced. -/
theorem unknownWordsAreThoseListed : Obligations.UnknownWordsAreThoseListed := by
  refine ⟨decodeWord_unknown_iff, fun s hrun hpc hunknown => ?_⟩
  exact ⟨_, step_of_unknown hrun ((fetchFault_none_iff s).mpr hpc) hunknown, rfl, rfl, rfl, advance_toNat hpc,
    changesOnly_raise_advance s _ _ _ _⟩

/-! ### What a step answers (R127, R130) -/

/-- Settles O9: whichever case of the step applies, it ends in a next state. -/
theorem stepIsTotal : Obligations.StepIsTotal := by
  intro s
  have hnext : ∃ t, step s = .next t := by
    rcases step_cases s with ⟨-, h⟩ | ⟨-, c, a, -, h⟩ | ⟨-, -, -, h⟩ | ⟨-, -, i, -, h⟩
    · exact ⟨_, h⟩
    · exact ⟨_, h⟩
    · exact ⟨_, h⟩
    · rw [h]
      exact exec_total i s.advance
  obtain ⟨t, ht⟩ := hnext
  exact ⟨t, ht, operate_step_of_next ht⟩

theorem stepResult_eq_waiting_iff (s : State) : s.stepResult = .waiting ↔ s.mode = .waitkey := by
  unfold State.stepResult
  cases s.mode <;> simp

/-- From mode RUN an instruction leaves the core waiting exactly when it is the wait for a key (R222). -/
theorem waitkey_iff_of_exec {i : Instr} {s t : State} (hrun : s.mode = .run) (h : exec i s = .next t) :
    t.mode = .waitkey ↔ ∃ x, i = .opFx0A x := by
  rcases exec_cases h with ⟨-, rfl⟩ | ⟨c, a, hf, rfl⟩
  · by_cases hi : ∃ x, i = .opFx0A x
    · obtain ⟨x, rfl⟩ := hi
      exact iff_of_true rfl ⟨x, rfl⟩
    · rw [mode_effectOf s (by simpa using hi), hrun]
      exact iff_of_false Mode.noConfusion hi
  · refine iff_of_false Mode.noConfusion ?_
    rintro ⟨x, rfl⟩
    cases hf

/-- Settles O10: a step that faults is not waiting, and one that executes waits exactly after `Fx0A`. -/
theorem stepAnswersWaitingExactlyAfterKeyWait : Obligations.StepAnswersWaitingExactlyAfterKeyWait := by
  intro s t hrun hstep
  rw [stepResult_eq_waiting_iff]
  change t.mode = .waitkey ↔ s.pc.toNat ≤ 0xFFE ∧ ∃ x, decodeWord s.fetchWord = .ok (.opFx0A x)
  rcases step_cases s with ⟨hmode, -⟩ | ⟨-, c, a, hfetch, h⟩ | ⟨-, -, ⟨e, hunknown⟩, h⟩ | ⟨-, hfetch, i, hdecode, h⟩
  · exact absurd hrun hmode
  · cases h.symm.trans hstep
    have hpc := ((fetchFault_some_iff s _).mp hfetch).1
    exact iff_of_false Mode.noConfusion fun hwait => by omega
  · cases h.symm.trans hstep
    exact iff_of_false Mode.noConfusion fun ⟨_, x, hx⟩ => by simp [hunknown] at hx
  · have hpc := (fetchFault_none_iff s).mp hfetch
    rw [waitkey_iff_of_exec (s := s.advance) hrun (h.symm.trans hstep), and_iff_right hpc, hdecode]
    simp

/-! ### What a step leaves alone (R128, R129, R131) -/

/-- A step has the whole effect of the instruction fetched, or it moves nothing but PC, the mode and the fault record. -/
theorem step_quiet_or_effect {s t : State} (h : step s = .next t) : s.ChangesOnly [.pc, .mode, .fault] t ∨
    ∃ i, decodeWord s.fetchWord = .ok i ∧ s.advance.faultOf i = none ∧ t = s.advance.effectOf i := by
  rcases step_cases s with ⟨-, hs⟩ | ⟨-, c, a, -, hs⟩ | ⟨-, -, -, hs⟩ | ⟨-, -, i, hdecode, hs⟩
  · cases hs.symm.trans h
    exact .inl (changesOnly_refl s _)
  · cases hs.symm.trans h
    exact .inl ((changesOnly_raise s _ _ _ _).mono (by simp))
  · cases hs.symm.trans h
    exact .inl (changesOnly_raise_advance s _ _ _ _)
  · rcases exec_cases (hs.symm.trans h) with ⟨hf, rfl⟩ | ⟨c, a, -, rfl⟩
    · exact .inr ⟨i, hdecode, hf, rfl⟩
    · exact .inl (changesOnly_raise_advance s _ _ _ _)

theorem key_notMem_instrWrites (i : Instr) : .key ∉ instrWrites i := by
  cases i <;> simp [instrWrites]

theorem dt_mem_instrWrites {i : Instr} : .dt ∈ instrWrites i ↔ ∃ x, i = .opFx15 x := by
  cases i <;> simp [instrWrites]

theorem st_mem_instrWrites {i : Instr} : .st ∈ instrWrites i ↔ ∃ x, i = .opFx18 x := by
  cases i <;> simp [instrWrites]

theorem draws_mem_instrWrites {i : Instr} : .draws ∈ instrWrites i ↔ ∃ x kk, i = .opCxkk x kk := by
  cases i <;> simp [instrWrites]

/-- The two instructions that write the dirty flag set it (R209). -/
theorem dirty_effectOf (s : State) (i : Instr) (h : s.dirty = true) : (s.effectOf i).dirty = true := by
  cases i with
  | op00E0 | opDxyn => rfl
  | _ => exact (changesOnly_effectOf s _ .dirty (by simp [instrWrites])).trans h

/-- Settles O12: an element that moved is one of the instruction's own. -/
theorem stepsLeaveDevicesToTheirInstructions : Obligations.StepsLeaveDevicesToTheirInstructions := by
  intro s t hstep
  rcases step_quiet_or_effect hstep with hquiet | ⟨i, hdecode, -, rfl⟩
  · have hdirty : t.dirty = s.dirty := hquiet .dirty (by simp)
    exact ⟨hquiet .key (by simp), fun h => hdirty.trans h, fun h => absurd (hquiet .dt (by simp)) h,
      fun h => absurd (hquiet .st (by simp)) h, fun h => absurd (hquiet .draws (by simp)) h⟩
  · have hframe := changesOnly_effectOf s.advance i
    refine ⟨hframe .key (key_notMem_instrWrites i), dirty_effectOf s.advance i, fun hmoved => ?_, fun hmoved => ?_,
      fun hmoved => ?_⟩
    · obtain ⟨x, rfl⟩ := dt_mem_instrWrites.mp (not_imp_comm.mp (hframe .dt) hmoved)
      exact ⟨x, hdecode⟩
    · obtain ⟨x, rfl⟩ := st_mem_instrWrites.mp (not_imp_comm.mp (hframe .st) hmoved)
      exact ⟨x, hdecode⟩
    · obtain ⟨x, kk, rfl⟩ := draws_mem_instrWrites.mp (not_imp_comm.mp (hframe .draws) hmoved)
      exact ⟨x, kk, hdecode⟩

/-- A store that passes its check begins above the font (R63). -/
theorem readByte_effectOf_font {s : State} {i : Instr} {a : Nat} (hf : s.faultOf i = none) (ha : a ≤ 0x04F) :
    (s.effectOf i).readByte a = s.readByte a := by
  cases i with
  | opFx33 x =>
    obtain ⟨hlow, -⟩ := (faultOf_Fx33_eq_none s x).mp hf
    exact readByte_storeBytes_outside s (.inl (by omega))
  | opFx55 x =>
    obtain ⟨hlow, -⟩ := (faultOf_Fx55_eq_none s x).mp hf
    exact readByte_storeBytes_outside s (.inl (by omega))
  | _ => exact changesOnly_effectOf s _ .mem (by simp [instrWrites]) a

/-- Settles O33: memory moves only by a store that passed its check. -/
theorem fontIsNeverWritten : Obligations.FontIsNeverWritten := by
  intro s t hstep a ha
  rcases step_quiet_or_effect hstep with hquiet | ⟨i, -, hf, rfl⟩
  · exact hquiet .mem (by simp) a
  · exact readByte_effectOf_font hf ha

/-! ### The key latch is read by the key skips alone (R129, R225) -/

theorem faultOf_setKey (s : State) (keys : Vector Bool 16) (i : Instr) :
    (s.setKey keys).faultOf i = s.faultOf i := by
  cases i <;> rfl

theorem skipIf_setKey (s : State) (keys : Vector Bool 16) (taken : Bool) :
    skipIf taken (s.setKey keys) = (skipIf taken s).setKey keys := by
  cases taken <;> rfl

theorem returned_setKey (s : State) (keys : Vector Bool 16) : (s.setKey keys).returned = s.returned.setKey keys := by
  rw [State.returned, State.returned, apply_dite (State.setKey · keys)]
  rfl

theorem called_setKey (s : State) (keys : Vector Bool 16) (nnn : Addr12) :
    (s.setKey keys).called nnn = (s.called nnn).setKey keys := by
  rw [State.called, State.called, apply_dite (State.setKey · keys)]
  rfl

theorem effectOf_setKey {i : Instr} (s : State) (keys : Vector Bool 16) (h9E : ∀ x, i ≠ .opEx9E x)
    (hA1 : ∀ x, i ≠ .opExA1 x) : (s.setKey keys).effectOf i = (s.effectOf i).setKey keys := by
  cases i with
  | opEx9E x => exact absurd rfl (h9E x)
  | opExA1 x => exact absurd rfl (hA1 x)
  | op00EE => exact returned_setKey s keys
  | op2nnn nnn => exact called_setKey s keys nnn
  | op3xkk | op4xkk | op5xy0 | op9xy0 => exact skipIf_setKey s keys _
  | _ => rfl

/-- The rest of the meanings do with another latch what they do with this one. -/
theorem exec_setKey {i : Instr} {s t : State} (keys : Vector Bool 16) (h9E : ∀ x, i ≠ .opEx9E x)
    (hA1 : ∀ x, i ≠ .opExA1 x) (h : exec i s = .next t) : exec i (s.setKey keys) = .next (t.setKey keys) := by
  rcases exec_cases h with ⟨hf, rfl⟩ | ⟨c, a, hf, rfl⟩
  · rw [exec_of_faultOf_none ((faultOf_setKey s keys i).trans hf), effectOf_setKey s keys h9E hA1]
  · rw [exec_of_faultOf_some ((faultOf_setKey s keys i).trans hf)]
    rfl

/-- Settles O13: fetch and decode do not read the latch, so the step takes the same case with any latch. -/
theorem onlyKeySkipsReadTheLatch : Obligations.OnlyKeySkipsReadTheLatch := by
  intro s t keys h9E hA1 hstep
  rcases step_cases s with ⟨hmode, hs⟩ | ⟨hrun, c, a, hfetch, hs⟩ | ⟨hrun, hfetch, ⟨e, hunknown⟩, hs⟩ |
    ⟨hrun, hfetch, i, hdecode, hs⟩
  · cases hs.symm.trans hstep
    exact step_of_not_run hmode
  · cases hs.symm.trans hstep
    exact step_of_fetchFault hrun hfetch
  · cases hs.symm.trans hstep
    exact step_of_unknown hrun hfetch hunknown
  · rw [step_of_decoded (s := s.setKey keys) hrun hfetch hdecode]
    exact exec_setKey (s := s.advance) keys (fun x hx => h9E x (hx ▸ hdecode)) (fun x hx => hA1 x (hx ▸ hdecode))
      (hs.symm.trans hstep)

/-! ### Precise faults (R264) -/

/-- What R264 says of a step from `s` that enters its fault in `t`. -/
def State.PreciseFault (s t : State) : Prop :=
  s.ChangesOnly [.pc, .mode, .fault] t ∧ t.fault.pc = s.pc ∧ t.stepResult = .fault t.fault.cause ∧
    (s.pc.toNat ≤ 0xFFE → t.pc.toNat = s.pc.toNat + 2 ∧ t.fault.opcode = s.fetchWord) ∧
    (0xFFF ≤ s.pc.toNat → t.pc = s.pc ∧ t.fault.opcode = 0)

theorem preciseFault_raiseAtFetch {s : State} (c : FaultCause) (a : Nat) (hpc : 0xFFF ≤ s.pc.toNat) :
    s.PreciseFault (s.raiseAtFetch c a) :=
  ⟨(changesOnly_raise s _ _ _ _).mono (by simp), rfl, rfl, fun hlow => by omega, fun _ => ⟨rfl, rfl⟩⟩

/-- Any fault after the fetch has PC advanced, and in its record the fetched word and the address before the advance. -/
theorem preciseFault_raise_advance {s : State} (c : FaultCause) (a : Nat) (hpc : s.pc.toNat ≤ 0xFFE) :
    s.PreciseFault (s.advance.raise c s.fetchWord s.advance.instrAddr a) :=
  ⟨changesOnly_raise_advance s _ _ _ _, State.advance_instrAddr s, rfl, fun _ => ⟨advance_toNat hpc, rfl⟩,
    fun hhigh => by omega⟩

/-- Settles O44: an instruction that faults encodes to the fetched word, so all three ways to fault are precise. -/
theorem faultsArePrecise : Obligations.FaultsArePrecise := by
  intro s t hsafe hstep hfaulted
  change s.PreciseFault t
  rcases step_cases s with ⟨-, hs⟩ | ⟨-, c, a, hfetch, hs⟩ | ⟨-, hfetch, -, hs⟩ | ⟨-, hfetch, i, hdecode, hs⟩
  · cases hs.symm.trans hstep
    exact absurd hsafe hfaulted
  · cases hs.symm.trans hstep
    exact preciseFault_raiseAtFetch c a ((fetchFault_some_iff s _).mp hfetch).1
  · cases hs.symm.trans hstep
    exact preciseFault_raise_advance .unknownOpcode 0 ((fetchFault_none_iff s).mp hfetch)
  · rcases exec_cases (hs.symm.trans hstep) with ⟨-, rfl⟩ | ⟨c, a, -, rfl⟩
    · exact absurd (effectOf_safe (s := s.advance) hsafe i) hfaulted
    · rw [encodeOfDecodeIsTheWord s.fetchWord i hdecode]
      exact preciseFault_raise_advance c a ((fetchFault_none_iff s).mp hfetch)

end Sys2Proof.Machine
end

section
/-! PROOFS. The invariant of every state between operations (spec/10_state.md sections 5, 6 and 11,
spec/70_reset_and_hazards.md section 1). -/

namespace Sys2Proof.Machine

/-! ### The reset state -/

theorem inv_resetOp (s : State) : s.resetOp.Inv where
  memCanonical := rfl
  fontIntact a ha := (readByte_resetOp s a).trans (if_pos ha)
  pcBound := by simp
  returnAddresses i _ hi := absurd hi (Nat.not_lt_zero i)
  faultLatched := iff_of_false Mode.noConfusion fun hcause => hcause rfl
  faultLegal := rfl

/-- Settles O50: the reset state is what the operation leaves of itself. -/
theorem resetIsLegal : Obligations.ResetIsLegal :=
  inv_resetOp State.reset

/-! ### One rule per kind of update -/

section
variable {s t : State}

/-- The invariant looks at memory, PC, the stack and the fault latch only. -/
theorem State.Inv.of_eq (h : s.Inv) (hmem : t.mem = s.mem) (hpc : t.pc = s.pc) (hstack : t.stack = s.stack)
    (hsp : t.sp = s.sp) (hmode : t.mode = .faulted ↔ s.mode = .faulted) (hfault : t.fault = s.fault) : t.Inv where
  memCanonical := hmem ▸ h.memCanonical
  fontIntact a ha := (congrArg (Memory.get · a) hmem).trans (h.fontIntact a ha)
  pcBound := hpc ▸ h.pcBound
  returnAddresses := by rw [hstack, hsp]; exact h.returnAddresses
  faultLatched := hmode.trans (hfault ▸ h.faultLatched)
  faultLegal := hfault ▸ h.faultLegal

theorem State.Inv.setV (h : s.Inv) (x : Nibble) (b : Byte) : (s.setV x b).Inv :=
  h.of_eq rfl rfl rfl rfl Iff.rfl rfl

theorem State.Inv.setVs (h : s.Inv) (v : Vector Byte 16) : (s.setVs v).Inv :=
  h.of_eq rfl rfl rfl rfl Iff.rfl rfl

theorem State.Inv.setI (h : s.Inv) (w : Word) : (s.setI w).Inv :=
  h.of_eq rfl rfl rfl rfl Iff.rfl rfl

theorem State.Inv.setDt (h : s.Inv) (b : Byte) : (s.setDt b).Inv :=
  h.of_eq rfl rfl rfl rfl Iff.rfl rfl

theorem State.Inv.setSt (h : s.Inv) (b : Byte) : (s.setSt b).Inv :=
  h.of_eq rfl rfl rfl rfl Iff.rfl rfl

theorem State.Inv.setKey (h : s.Inv) (keys : Vector Bool 16) : (s.setKey keys).Inv :=
  h.of_eq rfl rfl rfl rfl Iff.rfl rfl

theorem State.Inv.setFb (h : s.Inv) (g : Vector (BitVec 64) 32) : (s.setFb g).Inv :=
  h.of_eq rfl rfl rfl rfl Iff.rfl rfl

theorem State.Inv.setDirty (h : s.Inv) (d : Bool) : (s.setDirty d).Inv :=
  h.of_eq rfl rfl rfl rfl Iff.rfl rfl

theorem State.Inv.setWaitx (h : s.Inv) (x : Nibble) : (s.setWaitx x).Inv :=
  h.of_eq rfl rfl rfl rfl Iff.rfl rfl

theorem State.Inv.setDraws (h : s.Inv) (n : Nat) : (s.setDraws n).Inv :=
  h.of_eq rfl rfl rfl rfl Iff.rfl rfl

/-- A change between the two modes in which no fault is latched. -/
theorem State.Inv.setMode (h : s.Inv) {m : Mode} (hs : s.mode ≠ .faulted) (hm : m ≠ .faulted) : (s.setMode m).Inv :=
  h.of_eq rfl rfl rfl rfl (iff_of_false hm hs) rfl

theorem State.Inv.setPc (h : s.Inv) {w : Word} (hw : w.toNat ≤ 0x10FE) : (s.setPc w).Inv :=
  { h with pcBound := hw }

/-- Stores above the font, inside memory (R61, R63). -/
theorem State.Inv.storeBytes (h : s.Inv) {a : Nat} {bs : List Byte} (hlow : 80 ≤ a) (hhigh : a + bs.length ≤ 4096) :
    (s.storeBytes a bs).Inv :=
  { h with
    memCanonical := Memory.wf_setBytes bs hhigh h.memCanonical
    fontIntact := fun b hb => by
      rw [readByte_storeBytes_outside s (.inl (Nat.lt_of_lt_of_le hb hlow))]
      exact h.fontIntact b hb }

/-- Fault entry with a record that a fault may write (R261, R263). -/
theorem State.Inv.raise (h : s.Inv) {c : FaultCause} {w p : Word} {a : Nat} (hc : c ≠ .none)
    (hlegal : FaultRecord.Legal ⟨c, w, p, BitVec.ofNat 17 a⟩) : (s.raise c w p a).Inv :=
  { h with
    faultLatched := iff_of_true rfl hc
    faultLegal := hlegal }

/-- A return goes to a valid entry, and the entries below it stay valid (R28). -/
theorem State.Inv.returned (h : s.Inv) : s.returned.Inv := by
  unfold State.returned
  split
  case isFalse => exact h
  case isTrue hsp =>
    have htarget := (h.returnAddresses (s.sp.val - 1) (by omega) (by omega)).2
    exact { h with
      pcBound := by rw [State.setPc_pc]; omega
      returnAddresses := fun i hi hlt => h.returnAddresses i hi (Nat.lt_of_lt_of_le hlt (Nat.sub_le _ _)) }

/-- A call pushes the advanced PC (R142). -/
theorem State.Inv.called (h : s.Inv) (nnn : Addr12) (hlow : 2 ≤ s.pc.toNat) (hhigh : s.pc.toNat ≤ 0x1000) :
    (s.called nnn).Inv := by
  unfold State.called
  split
  case isFalse => exact h
  case isTrue hsp =>
    have hnnn := nnn.isLt
    refine { h with
      pcBound := by rw [State.setPc_pc, address_toNat]; omega
      returnAddresses := fun i hi hlt => ?_ }
    rw [State.setPc_stack, State.setStack_stack, Vector.getElem_set]
    split
    · exact ⟨hlow, hhigh⟩
    · exact h.returnAddresses i hi (by simp at hlt; omega)

/-- A skip from an advanced PC (R148). -/
theorem State.Inv.skipIf (h : s.Inv) (taken : Bool) (hhigh : s.pc.toNat ≤ 0x1000) : (skipIf taken s).Inv := by
  cases taken with
  | false => exact h
  | true => exact h.setPc (by bv_omega)

end

/-! ### Every fault writes a legal record (R261) -/

theorem legal_memoryOutOfRange (w p : Word) {base : Nat} (hbase : base < 65536) :
    FaultRecord.Legal ⟨.memoryOutOfRange, w, p, BitVec.ofNat 17 (max base 4096)⟩ := by
  simp only [FaultRecord.Legal, BitVec.toNat_ofNat]
  omega

theorem legal_fontWriteFault (w p : Word) {base : Nat} (hbase : base < 80) :
    FaultRecord.Legal ⟨.fontWriteFault, w, p, BitVec.ofNat 17 base⟩ := by
  simp only [FaultRecord.Legal, BitVec.toNat_ofNat]
  omega

theorem legal_firstFault_readFault {base len : Nat} {c : FaultCause} {a : Nat} (w p : Word) (hbase : base < 65536)
    (h : firstFault readFault base len = some (c, a)) : c ≠ .none ∧ FaultRecord.Legal ⟨c, w, p, BitVec.ofNat 17 a⟩ := by
  rw [firstFault_readFault] at h
  split at h
  · cases h
  · cases h
    exact ⟨FaultCause.noConfusion, legal_memoryOutOfRange w p hbase⟩

theorem legal_firstFault_writeFault {base len : Nat} {c : FaultCause} {a : Nat} (w p : Word) (hbase : base < 65536)
    (hlen : 0 < len) (h : firstFault writeFault base len = some (c, a)) :
    c ≠ .none ∧ FaultRecord.Legal ⟨c, w, p, BitVec.ofNat 17 a⟩ := by
  rw [firstFault_writeFault hlen] at h
  split at h
  · cases h
    exact ⟨FaultCause.noConfusion, legal_fontWriteFault w p ‹_›⟩
  · split at h
    · cases h
    · cases h
      exact ⟨FaultCause.noConfusion, legal_memoryOutOfRange w p hbase⟩

theorem legal_faultOf {s : State} {i : Instr} {c : FaultCause} {a : Nat} (w p : Word) (h : s.faultOf i = some (c, a)) :
    c ≠ .none ∧ FaultRecord.Legal ⟨c, w, p, BitVec.ofNat 17 a⟩ := by
  cases i with
  | op00EE | op2nnn =>
    obtain ⟨-, hfault⟩ := Option.ite_some_none_eq_some.mp h
    cases hfault
    exact ⟨FaultCause.noConfusion, rfl⟩
  | opDxyn | opFx65 => exact legal_firstFault_readFault w p (effAddr_zero_lt s) h
  | opFx33 => exact legal_firstFault_writeFault w p (effAddr_zero_lt s) (by omega) h
  | opFx55 => exact legal_firstFault_writeFault w p (effAddr_zero_lt s) (Nat.succ_pos _) h
  | _ => cases h

/-! ### Steps and operations -/

/-- The effect of an instruction, from the advanced PC of a fetch that succeeded. -/
theorem State.Inv.effectOf {s : State} {i : Instr} (h : s.Inv) (hsafe : s.Safe) (hf : s.faultOf i = none)
    (hlow : 2 ≤ s.pc.toNat) (hhigh : s.pc.toNat ≤ 0x1000) : (s.effectOf i).Inv := by
  cases i with
  | op00EE => exact h.returned
  | op2nnn nnn => exact h.called nnn hlow hhigh
  | op3xkk | op4xkk | op5xy0 | op9xy0 | opEx9E | opExA1 => exact h.skipIf _ hhigh
  | op1nnn nnn =>
    have := nnn.isLt
    exact h.setPc (by rw [address_toNat]; omega)
  | opBnnn nnn =>
    have := nnn.isLt
    have := (s.getV 0).isLt
    exact h.setPc (by rw [BitVec.toNat_add, address_toNat, widen_toNat]; omega)
  | opFx33 x =>
    obtain ⟨hfirst, hlast⟩ := (faultOf_Fx33_eq_none s x).mp hf
    exact h.storeBytes hfirst (by rw [length_decimalDigits]; rw [effAddr_eq_add] at hlast; omega)
  | opFx55 x =>
    obtain ⟨hfirst, hlast⟩ := (faultOf_Fx55_eq_none s x).mp hf
    exact h.storeBytes hfirst (by rw [length_registerRun]; rw [effAddr_eq_add] at hlast; omega)
  | op00E0 => exact (h.setFb _).setDirty true
  | op6xkk | op7xkk | op8xy0 | op8xy1 | op8xy2 | op8xy3 | opFx07 => exact h.setV _ _
  | op8xy4 | op8xy5 | op8xy6 | op8xy7 | op8xyE => exact (h.setV _ _).setV VF _
  | opAnnn | opFx1E | opFx29 => exact h.setI _
  | opCxkk => exact (h.setDraws _).setV _ _
  | opDxyn => exact ((h.setFb _).setV VF _).setDirty true
  | opFx0A x => exact (h.setWaitx x).setMode hsafe Mode.noConfusion
  | opFx15 => exact h.setDt _
  | opFx18 => exact h.setSt _
  | opFx65 => exact h.setVs _

/-- A fetch that succeeded bounds the advanced PC. -/
theorem advance_pc_bounds {s : State} (hfetch : s.fetchFault = none) :
    2 ≤ s.advance.pc.toNat ∧ s.advance.pc.toNat ≤ 0x1000 := by
  have hpc := (fetchFault_none_iff s).mp hfetch
  rw [State.advance_pc, advance_toNat hpc]
  omega

theorem State.Inv.advance {s : State} (h : s.Inv) (hfetch : s.fetchFault = none) : s.advance.Inv :=
  h.setPc ((advance_pc_bounds hfetch).2.trans (by omega))

/-- Settles O51: from an advanced PC every effect and every fault keeps the invariant, and a fetch fault leaves PC. -/
theorem stepsKeepStatesLegal : Obligations.StepsKeepStatesLegal := by
  intro s t h hstep
  rcases step_cases s with ⟨-, hs⟩ | ⟨-, c, a, hfetch, hs⟩ | ⟨-, hfetch, -, hs⟩ | ⟨hrun, hfetch, i, -, hs⟩
  · cases hs.symm.trans hstep
    exact h
  · cases hs.symm.trans hstep
    obtain ⟨hc, hlegal⟩ := legal_firstFault_readFault 0 s.pc s.pc.isLt hfetch
    exact h.raise hc hlegal
  · cases hs.symm.trans hstep
    exact (h.advance hfetch).raise FaultCause.noConfusion rfl
  · have hinv := h.advance hfetch
    obtain ⟨hlow, hhigh⟩ := advance_pc_bounds hfetch
    rcases exec_cases (hs.symm.trans hstep) with ⟨hf, rfl⟩ | ⟨c, a, hf, rfl⟩
    · exact hinv.effectOf (by simp [State.Safe, hrun]) hf hlow hhigh
    · obtain ⟨hc, hlegal⟩ := legal_faultOf (encode i) s.advance.instrAddr hf
      exact hinv.raise hc hlegal

theorem operate_keeps_inv {op : Operation} {s t : State} {r : Reply} (h : s.Inv) (hop : operate op s = .next (t, r)) :
    t.Inv := by
  rcases operate_cases hop with ⟨-, rfl⟩ | ⟨bytes, hfits, rfl⟩ | ⟨keys, rfl⟩ | ⟨hwait, k, rfl⟩ | hstep | rfl | rfl | rfl
  · exact inv_resetOp s
  · exact h.storeBytes (by omega) (by omega)
  · exact h.setKey keys
  · exact (h.setV _ _).setMode (by simp [hwait]) Mode.noConfusion
  · exact stepsKeepStatesLegal s t h hstep
  · exact (h.setDt _).setSt _
  · exact h.setDirty false
  · exact h

/-- Settles O52: induction over the operations since reset. -/
theorem everyHostScheduleKeepsStatesLegal : Obligations.EveryHostScheduleKeepsStatesLegal := by
  refine ⟨fun _ _ _ _ h hop => operate_keeps_inv h hop, fun s hreach => ?_⟩
  induction hreach with
  | reset => exact resetIsLegal
  | operation op _ hop ih => exact operate_keeps_inv ih hop

end Sys2Proof.Machine
end
